-- ==== Sys2Proof/Word.lean ====
section
/-! DEFINITION. The fixed-width values of the block (00_scope.md R8: `uN` is the type of unsigned N-bit values). -/

namespace Sys2Proof

abbrev U1 := BitVec 1
abbrev U4 := BitVec 4
abbrev U8 := BitVec 8
abbrev U13 := BitVec 13
abbrev U16 := BitVec 16
abbrev U24 := BitVec 24
abbrev U32 := BitVec 32
abbrev U64 := BitVec 64

end Sys2Proof
end

