-- ==== Sys2Proof/Config.lean ====
section
/-! DEFINITION. The fixed parameters of 00_scope.md R5, and the named constants of R6 that no rule reads. The two open
parameters a rule does read, `ROW_BASE` and `PAGE_BYTES`, are fields of State (assumption log 3). -/

namespace Sys2Proof.Config

/-- `VIEW_W` (R5). -/
@[simp] def viewW : Nat := 192
/-- `VIEW_H` (R5). -/
@[simp] def viewH : Nat := 128
/-- `TILE`, the tile edge in pixels (R5). -/
@[simp] def tileEdge : Nat := 8
/-- `PIX_BITS` (R5). -/
@[simp] def pixBits : Nat := 4
/-- `VIEW_TW = VIEW_W / TILE` (R5). -/
def viewTW : Nat := viewW / tileEdge
/-- `VIEW_TH = VIEW_H / TILE` (R5). -/
def viewTH : Nat := viewH / tileEdge
/-- `PLANE_TW = 2 × VIEW_TW` (R5). -/
def planeTW : Nat := 2 * viewTW
/-- `PLANE_TH = 2 × VIEW_TH` (R5). -/
def planeTH : Nat := 2 * viewTH
/-- `PLANE_W = PLANE_TW × TILE` (R5). -/
def planeW : Nat := planeTW * tileEdge
/-- `PLANE_H = PLANE_TH × TILE` (R5). -/
def planeH : Nat := planeTH * tileEdge
/-- `PLANE_TILES = PLANE_TW × PLANE_TH` (R5). -/
def planeTiles : Nat := planeTW * planeTH
/-- `N_TILE = PLANE_TILES × 4` (R5, 90_conflicts.md C3). -/
def nTile : Nat := planeTiles * 4
/-- `N_PAL` (R5). -/
@[simp] def nPal : Nat := 16
/-- `PAL_LEN` (R5). -/
@[simp] def palLen : Nat := 16
/-- `N_SPR` (R5). -/
@[simp] def nSpr : Nat := 256
/-- `SPR_SLOTS` (R5). -/
@[simp] def sprSlots : Nat := 32
/-- `SCX_MAX = PLANE_W − VIEW_W` (R5). -/
def scxMax : Nat := planeW - viewW
/-- `SCY_MAX = PLANE_H − VIEW_H` (R5). -/
def scyMax : Nat := planeH - viewH
/-- `FB_LEN = VIEW_W × VIEW_H` (R5). -/
def fbLen : Nat := viewW * viewH
/-- `PAGES`, the VM memory pages the block requires (R5, R7). -/
@[simp] def pages : Nat := 1
/-- `R_STEP` (R5). -/
@[simp] def rStep : Nat := 36
/-- `G_STEP` (R5). -/
@[simp] def gStep : Nat := 36
/-- `B_STEP` (R5). -/
@[simp] def bStep : Nat := 85

/-- `SYSTEM_ID` (R6, R7): one of the two constants the block presents to the VM. The spec gives no value and no rule reads it. -/
opaque systemId : String
/-- `DISPLAY_TITLE` (R6): no value, read by no rule. -/
opaque displayTitle : String
/-- `DISPLAY_SCALE` (R6): no value, read by no rule. -/
opaque displayScale : Nat

@[simp] theorem viewTW_eq : viewTW = 24 := rfl
@[simp] theorem viewTH_eq : viewTH = 16 := rfl
@[simp] theorem planeTW_eq : planeTW = 48 := rfl
@[simp] theorem planeTH_eq : planeTH = 32 := rfl
@[simp] theorem planeW_eq : planeW = 384 := rfl
@[simp] theorem planeH_eq : planeH = 256 := rfl
@[simp] theorem planeTiles_eq : planeTiles = 1536 := rfl
@[simp] theorem nTile_eq : nTile = 6144 := rfl
@[simp] theorem scxMax_eq : scxMax = 192 := rfl
@[simp] theorem scyMax_eq : scyMax = 128 := rfl
@[simp] theorem fbLen_eq : fbLen = 24576 := rfl

end Sys2Proof.Config
end

