-- ==== Sys2Proof/Syntax.lean ====
section
/-! DEFINITION. The operations of the block, one constructor per row of spec/opcode_table.json, and the words its three
ports take (30_encoding.md R41 to R48). Operands have the width of the field they are read from, so an operand that fits
its field but is out of range is a well-formed operation, which faults when it runs (R51). Ignored fields are no part of an
operation (R45; assumption log 13). -/

namespace Sys2Proof

/-- One word on one of the three inbound ports (30_encoding.md R41). -/
inductive PortWord where
  /-- Format S, the signal port (R42). -/
  | signal (w : U16)
  /-- Format T, the table port (R43). -/
  | table (w : U64)
  /-- Format K, the tick port (R44). -/
  | tick (w : U1)
deriving DecidableEq, Repr

/-- The three ports. -/
inductive Port where
  | signal
  | table
  | tick
deriving DecidableEq, Repr

def PortWord.port : PortWord → Port
  | .signal _ => .signal
  | .table _ => .table
  | .tick _ => .tick

/-- The operations (30_encoding.md R46, R47, R48). -/
inductive Instr where
  /-- `PRESENT` (R86). -/
  | present
  /-- `WROW` (R80). -/
  | wrow
  /-- `NOP`: the signal value is neither 1 nor 2 (R88). -/
  | nop (signal : U16)
  /-- `TNOP` (R90). -/
  | tnop
  /-- `PALSET p, i, v` (R56). -/
  | palset (p : U16) (i : U8) (v : U8)
  /-- `RESOLVE p, i` (R57). -/
  | resolve (p : U16) (i : U8)
  /-- `TILESET t, r, row` (R60). -/
  | tileset (t : U16) (r : U8) (row : U32)
  /-- `TILEGET t, r` (R61). -/
  | tileget (t : U16) (r : U8)
  /-- `SPRSETH s, pal, w, h` (R62). -/
  | sprseth (sid : U16) (pal : U8) (w : U8) (h : U8)
  /-- `SPRSETT s, k, t` (R63). -/
  | sprsett (sid : U16) (k : U8) (t : U16)
  /-- `SPRGETH s` (R64). -/
  | sprgeth (sid : U16)
  /-- `SPRGETT s, k` (R65). -/
  | sprgett (sid : U16) (k : U8)
  /-- `BGSET px, py, t` (R70). -/
  | bgset (px : U16) (py : U8) (t : U16)
  /-- `BGGET px, py` (R71). -/
  | bgget (px : U16) (py : U8)
  /-- `BGPAL p` (R72). -/
  | bgpal (p : U8)
  /-- `SCROLL x, y`, both two's complement (R73). -/
  | scroll (x : U16) (y : U16)
  /-- `SCROLLGET` (R74). -/
  | scrollget
  /-- `BGROW y` (R75). -/
  | bgrow (y : U16)
  /-- `SPRDRAW s, x, y`, the coordinates two's complement (R77). -/
  | sprdraw (sid : U16) (x : U16) (y : U16)
  /-- `MODESET m` (R81). -/
  | modeset (m : U1)
  /-- `ROWPALSET p` (R82). -/
  | rowpalset (p : U8)
  /-- `STATGET` (R91). -/
  | statget
  /-- A table word whose `op` is none of the 19 defined ones (R49). -/
  | reserved (op : U8)
  /-- `TICK q` (R89). -/
  | tick (q : U1)
deriving DecidableEq, Repr

/-- The port an operation is presented on (spec/opcode_table.json, "port"). -/
def Instr.port : Instr → Port
  | .present => .signal
  | .wrow => .signal
  | .nop _ => .signal
  | .tnop => .table
  | .palset _ _ _ => .table
  | .resolve _ _ => .table
  | .tileset _ _ _ => .table
  | .tileget _ _ => .table
  | .sprseth _ _ _ _ => .table
  | .sprsett _ _ _ => .table
  | .sprgeth _ => .table
  | .sprgett _ _ => .table
  | .bgset _ _ _ => .table
  | .bgget _ _ => .table
  | .bgpal _ => .table
  | .scroll _ _ => .table
  | .scrollget => .table
  | .bgrow _ => .table
  | .sprdraw _ _ _ => .table
  | .modeset _ => .table
  | .rowpalset _ => .table
  | .statget => .table
  | .reserved _ => .table
  | .tick _ => .tick

end Sys2Proof
end

