-- ==== Sys2Proof/WellFormed.lean ====
section
/-! DEFINITION. Which terms of Instr stand for an operation that some port word selects. Only two constructors have
terms that do not: a `NOP` with the value of another signal, and a `RESERVED` with a defined opcode. -/

namespace Sys2Proof

/-- The 19 defined values of `op` (30_encoding.md R47). -/
def definedOps : List U8 :=
  [0x00, 0x10, 0x11, 0x20, 0x21, 0x30, 0x31, 0x32, 0x33,
   0x40, 0x41, 0x42, 0x43, 0x44, 0x45, 0x50, 0x60, 0x61, 0x70]

/-- `signal ∉ {0x0001, 0x0002}` for `NOP` (R88); `op` none of R47's for a reserved word (R49). Every other term is
well-formed, out-of-range operands included (R51). -/
def Instr.wellFormed : Instr → Bool
  | .nop signal => signal != 0x0001 && signal != 0x0002
  | .reserved op => !definedOps.contains op
  | .present => true
  | .wrow => true
  | .tnop => true
  | .palset _ _ _ => true
  | .resolve _ _ => true
  | .tileset _ _ _ => true
  | .tileget _ _ => true
  | .sprseth _ _ _ _ => true
  | .sprsett _ _ _ => true
  | .sprgeth _ => true
  | .sprgett _ _ => true
  | .bgset _ _ _ => true
  | .bgget _ _ => true
  | .bgpal _ => true
  | .scroll _ _ => true
  | .scrollget => true
  | .bgrow _ => true
  | .sprdraw _ _ _ => true
  | .modeset _ => true
  | .rowpalset _ => true
  | .statget => true
  | .tick _ => true

end Sys2Proof
end

