-- ==== Sys2Proof/Decode.lean ====
section
/-! DEFINITION. The three decoders (30_encoding.md R42 to R50), each total on its port's words; after them the encoder, from
the written forms of R51; and the pseudo-operations of R52. A word the table port does not define decodes to `reserved`, by
its opcode (R49): nothing falls through to a neighbour. -/

namespace Sys2Proof

/-- `op = cmd[63:56]` (R43). -/
def tableOp (w : U64) : U8 := w.extractLsb' 56 8
/-- `a = cmd[55:40]` (R43). -/
def tableA (w : U64) : U16 := w.extractLsb' 40 16
/-- `b = cmd[39:32]` (R43). -/
def tableB (w : U64) : U8 := w.extractLsb' 32 8
/-- `d = cmd[31:0]` (R43). -/
def tableD (w : U64) : U32 := w.extractLsb' 0 32

/-- `d[31:16]` (R45). -/
def dHi (d : U32) : U16 := d.extractLsb' 16 16
/-- `d[15:0]` (R45). -/
def dLo (d : U32) : U16 := d.extractLsb' 0 16
/-- `d[23:16]` (R45). -/
def dByte2 (d : U32) : U8 := d.extractLsb' 16 8
/-- `d[15:8]` (R45). -/
def dByte1 (d : U32) : U8 := d.extractLsb' 8 8
/-- `d[7:0]` (R45). -/
def dByte0 (d : U32) : U8 := d.extractLsb' 0 8
/-- `d[0]` (R45). -/
def dBit0 (d : U32) : U1 := d.extractLsb' 0 1

/-- The signal decoder compares all 16 bits (R46). -/
def decodeSignal (w : U16) : Instr :=
  if w = 0x0001 then .present
  else if w = 0x0002 then .wrow
  else .nop w

/-- An operation of the table port from the four fields of its word (R45, R47). The choice looks at `op` only. -/
def decodeFields (op : U8) (a : U16) (b : U8) (d : U32) : Instr :=
  if op = 0x00 then .tnop
  else if op = 0x10 then .palset a b (dByte0 d)
  else if op = 0x11 then .resolve a b
  else if op = 0x20 then .tileset a b d
  else if op = 0x21 then .tileget a b
  else if op = 0x30 then .sprseth a (dByte2 d) (dByte1 d) (dByte0 d)
  else if op = 0x31 then .sprsett a b (dLo d)
  else if op = 0x32 then .sprgeth a
  else if op = 0x33 then .sprgett a b
  else if op = 0x40 then .bgset a b (dLo d)
  else if op = 0x41 then .bgget a b
  else if op = 0x42 then .bgpal (dByte0 d)
  else if op = 0x43 then .scroll (dHi d) (dLo d)
  else if op = 0x44 then .scrollget
  else if op = 0x45 then .bgrow a
  else if op = 0x50 then .sprdraw a (dHi d) (dLo d)
  else if op = 0x60 then .modeset (dBit0 d)
  else if op = 0x61 then .rowpalset (dByte0 d)
  else if op = 0x70 then .statget
  else .reserved op

/-- The table decoder (R43, R47). -/
def decodeTable (w : U64) : Instr :=
  decodeFields (tableOp w) (tableA w) (tableB w) (tableD w)

/-- The decoder of all three ports (R50). -/
def decode : PortWord → Instr
  | .signal w => decodeSignal w
  | .table w => decodeTable w
  | .tick q => .tick q

/-- The port word whose bits are `w`, chosen by the width of the row (spec/opcode_table.json: 16, 64, or 1 bit, the last
also as one whole byte). No port takes a word of another width (R41; assumption log 12). -/
def portWordOfBits (nbits w : Nat) : Option PortWord :=
  if nbits = 16 then some (.signal (BitVec.ofNat 16 w))
  else if nbits = 64 then some (.table (BitVec.ofNat 64 w))
  else if nbits = 1 ∨ nbits = 8 then some (.tick (BitVec.ofNat 1 w))
  else none

/-- The operation the decoders read from the row-sized word `w`. -/
def decodeTableWord (nbits w : Nat) : Option Instr :=
  (portWordOfBits nbits w).map decode

/-- `op ++ a ++ b ++ d`, the four parts of a table word (R51). -/
def tableWord (op : U8) (a : U16) (b : U8) (d : U32) : PortWord :=
  .table (op ++ a ++ b ++ d)

/-- The word of each operation (R51). A field the operation ignores is written 0 (R45, "software should write 0"). -/
def encode : Instr → PortWord
  | .present => .signal 0x0001
  | .wrow => .signal 0x0002
  | .nop signal => .signal signal
  | .tnop => tableWord 0x00 0 0 0
  | .palset p i v => tableWord 0x10 p i (v.setWidth 32)
  | .resolve p i => tableWord 0x11 p i 0
  | .tileset t r row => tableWord 0x20 t r row
  | .tileget t r => tableWord 0x21 t r 0
  | .sprseth sid pal w h => tableWord 0x30 sid 0 (0#8 ++ pal ++ w ++ h)
  | .sprsett sid k t => tableWord 0x31 sid k (t.setWidth 32)
  | .sprgeth sid => tableWord 0x32 sid 0 0
  | .sprgett sid k => tableWord 0x33 sid k 0
  | .bgset px py t => tableWord 0x40 px py (t.setWidth 32)
  | .bgget px py => tableWord 0x41 px py 0
  | .bgpal p => tableWord 0x42 0 0 (p.setWidth 32)
  | .scroll x y => tableWord 0x43 0 0 (x ++ y)
  | .scrollget => tableWord 0x44 0 0 0
  | .bgrow y => tableWord 0x45 y 0 0
  | .sprdraw sid x y => tableWord 0x50 sid 0 (x ++ y)
  | .modeset m => tableWord 0x60 0 0 (m.setWidth 32)
  | .rowpalset p => tableWord 0x61 0 0 (p.setWidth 32)
  | .statget => tableWord 0x70 0 0 0
  | .reserved op => tableWord op 0 0 0
  | .tick q => .tick q

/-- `SETTILE t, r0, ..., r7` (R52): the tile's rows, top row first. -/
def setTileOps (t : U16) (rows : Vector U32 8) : List Instr :=
  rows.toList.zipIdx.map fun x => .tileset t (BitVec.ofNat 8 x.2) x.1

/-- `SETSPRITE s, pal, w, h, t0, ..., t(n−1)` with `n = w × h` (R52): the header, then one word per tile id, in order. -/
def setSpriteOps (sid : U16) (pal w h : U8) (tiles : List U16) : List Instr :=
  .sprseth sid pal w h ::
    tiles.zipIdx.map fun x => .sprsett sid (BitVec.ofNat 8 x.2) x.1

/-- `SETPALETTE p, v0, ..., v15` (R52). -/
def setPaletteOps (p : U16) (vs : Vector U8 16) : List Instr :=
  vs.toList.zipIdx.map fun x => .palset p (BitVec.ofNat 8 x.2) x.1

/-- `BGFRAME` (R52). -/
def bgFrameOps : List Instr :=
  (List.range 128).map fun y => .bgrow (BitVec.ofNat 16 y)

end Sys2Proof
end

