-- ==== Sys2Proof/Machine/State.lean ====
section
/-! DEFINITION. Everything the spec gives the block (10_state.md R14 to R24, every item of R29), the open parameters of
00_scope.md R6 that a rule reads, and the environment's side of the ports (R28) as plain data. -/

namespace Sys2Proof.Machine

/-- One of the block's stores: (index, entry) pairs in canonical form, indices strictly rising, an entry of 0 never listed,
since an unlisted index reads as 0, the reset contents of every store (10_state.md R29; assumption log 10). -/
abbrev Store (w : Nat) := List (Nat × BitVec w)

/-- The readable bytes of VM memory: (address, byte) pairs, addresses strictly rising. An unlisted address is one the VM
has no readable byte at (20_memory.md R31; assumption log 4). -/
abbrev Memory := List Host.Cell

/-- A frame handed to the display backend, word `n` at index `n` (45_present_dispatch.md R87), and the backend's answer. -/
structure Present where
  frame : Store 32
  accepted : Bool
deriving DecidableEq, Repr

/-- What a port answers (30_encoding.md R41). -/
inductive Response where
  /-- `OK` of the signal port. -/
  | ok
  /-- `OK(rdata)` of the table port. -/
  | okData (rdata : U32)
  /-- `ERR(cause)` of the signal and table ports. -/
  | err (cause : U8)
  /-- `halt_req` of the tick port. -/
  | haltReq (h : U1)
deriving DecidableEq, Repr

/-- What the outside world does next (assumption log 1 and 8). -/
inductive Input where
  /-- The VM presents a word on a port (R41). -/
  | word (w : PortWord)
  /-- Between transactions the VM and the display run: the VM's operand stack (top first), the readable bytes of its
  memory and the backend's next answer are now these (R28). -/
  | environment (stack : List U8) (cells : List Host.Cell) (displayOk : Bool)
  /-- The reset input, between transactions (70_reset_and_hazards.md R105). -/
  | reset
deriving DecidableEq, Repr

structure State where
  /-- `PAL[p][i]` at index `16p + i` (R14). -/
  pal : Store 8
  /-- `TILE[t][r]` at index `8t + r` (R15). -/
  tile : Store 32
  /-- `SPR[s].pal` at index `s` (R16). -/
  sprPal : Store 4
  /-- `SPR[s].w` at index `s` (R16). -/
  sprW : Store 8
  /-- `SPR[s].h` at index `s` (R16). -/
  sprH : Store 8
  /-- `SPR[s].tile[k]` at index `32s + k` (R16). -/
  sprTile : Store 13
  /-- `BG[py][px]` at index `48py + px` (R17). -/
  bg : Store 13
  /-- `FB[n]` at index `n` (R18). -/
  fb : Store 24
  /-- `SCX` (R19). -/
  scx : U8
  /-- `SCY` (R19). -/
  scy : U8
  /-- `BGP` (R20). -/
  bgp : U4
  /-- `MODE`: 0 indexed, 1 direct (R21). -/
  mode : U1
  /-- `ROWPAL` (R22). -/
  rowpal : U4
  /-- `FCAUSE`: 0, or the cause of the one fault there has been (R23). -/
  fcause : U8
  /-- `HALT_SENT` (R24). -/
  haltSent : U1
  /-- `ROW_BASE`, an open parameter (00_scope.md R6). No operation writes it. -/
  rowBase : Nat
  /-- `PAGE_BYTES`, an open parameter (R6). No operation writes it. -/
  pageBytes : Nat
  /-- Environment: the VM's operand stack, top first (20_memory.md R32). -/
  vmStack : List U8
  /-- Environment: the readable bytes of VM memory (R31). -/
  vmMem : Memory
  /-- Environment: what the backend answers to the next `DisplayPresent`, `Ok` or `Fail` (R86). -/
  displayOk : Bool
  /-- What the outside world does next, first first (R41). -/
  inbox : List Input
  /-- The answers given so far, newest first (R41). -/
  responses : List Response
  /-- The frames handed over so far, newest first (R87). -/
  presents : List Present
deriving DecidableEq, Repr

/-- The ways the model stops with a fault. The block's own faults are no stops: they are taken, as next states (R100). -/
inductive Fault where
  /-- Raised by `BGROW` and `SPRDRAW` when they would index a store at an index that does not exist. The invariants of
  10_state.md R27 exclude it ("`BGROW` and `SPRDRAW` never index a store out of range"), so no run from reset meets it.
  Safe: it stops where the spec gives no effect (assumption log 7). -/
  | storeIndexOutOfRange
deriving DecidableEq, Repr

/-- The ways the model refuses. -/
inductive Refusal where
  /-- Raised by an arm of exec whose instruction has no meaning yet. No arm raises it. Safe. -/
  | notModelled (mnemonic : String)
deriving DecidableEq, Repr

/-- The machine right after reset: the block at the values of R29; the parameters and the environment at the values of
assumption log 1 and 3 to 6. -/
def State.reset : State where
  pal := []
  tile := []
  sprPal := []
  sprW := []
  sprH := []
  sprTile := []
  bg := []
  fb := []
  scx := 0
  scy := 0
  bgp := 0
  mode := 0
  rowpal := 0
  fcause := 0
  haltSent := 0
  rowBase := 0
  pageBytes := 256
  vmStack := []
  vmMem := []
  displayOk := true
  inbox := []
  responses := []
  presents := []

end Sys2Proof.Machine
end

