-- ==== Sys2Proof/Machine/Flags.lean ====
section
/-! DEFINITION. The codes a fault records (60_exceptions.md R97) and the status word that shows them (10_state.md R25). No
operation computes arithmetic flags (46_laws_and_summaries.md R92). -/

namespace Sys2Proof.Machine

/-- The causes of a fault (R97), named as there. -/
inductive Cause where
  | pvStackEmpty
  | pvMemShort
  | pvReservedOp
  | dbfPresent
  | oorRow
  | oorPalette
  | oorColour
  | oorTile
  | oorSprite
  | oorTileRow
  | oorSlot
  | oorPlane
  | oorDim
deriving DecidableEq, Repr

/-- The code `FCAUSE` gets: kind in the high nibble, check in the low one (R97). -/
def Cause.code : Cause → U8
  | .pvStackEmpty => 0x11
  | .pvMemShort => 0x12
  | .pvReservedOp => 0x13
  | .dbfPresent => 0x21
  | .oorRow => 0x31
  | .oorPalette => 0x32
  | .oorColour => 0x33
  | .oorTile => 0x34
  | .oorSprite => 0x35
  | .oorTileRow => 0x36
  | .oorSlot => 0x37
  | .oorPlane => 0x38
  | .oorDim => 0x39

/-- Every cause, in the order of R97's table. -/
def Cause.all : List Cause :=
  [.pvStackEmpty, .pvMemShort, .pvReservedOp, .dbfPresent, .oorRow, .oorPalette, .oorColour, .oorTile, .oorSprite,
   .oorTileRow, .oorSlot, .oorPlane, .oorDim]

/-- `STATUS`: 0 (31:20), `BGP` (19:16), `ROWPAL` (15:12), 0 (11:10), `MODE` (9), `HALT_SENT` (8), `FCAUSE` (7:0) (R25). -/
def State.status (s : State) : U32 :=
  0#12 ++ s.bgp ++ s.rowpal ++ 0#2 ++ s.mode ++ s.haltSent ++ s.fcause

end Sys2Proof.Machine
end

