-- ==== Sys2Proof/Machine/Operands.lean ====
section
/-! DEFINITION. How operands are read as numbers (00_scope.md R8, 46_laws_and_summaries.md R92), and where an entry of a
store lies in the store's list. -/

namespace Sys2Proof.Machine

/-- `sint16(v) = v` when `v < 0x8000`, `v − 65536` otherwise (R92). -/
def sint16 (v : U16) : Int :=
  if v.toNat < 0x8000 then (v.toNat : Int) else (v.toNat : Int) - 65536

/-- `clamp(v, lo, hi) = min(max(v, lo), hi)` on integers (R8). -/
def clamp (v lo hi : Int) : Int := min (max v lo) hi

/-- The index of `PAL[p][i]`. -/
def palKey (p i : Nat) : Nat := p * Config.palLen + i
/-- The index of `TILE[t][r]`. -/
def tileKey (t r : Nat) : Nat := t * Config.tileEdge + r
/-- The index of `SPR[s].tile[k]`. -/
def sprTileKey (sid k : Nat) : Nat := sid * Config.sprSlots + k
/-- `py × 48 + px` (10_state.md R17). -/
def bgKey (px py : Nat) : Nat := py * Config.planeTW + px
/-- `sy × 192 + sx` (10_state.md R18). -/
def fbKey (sx sy : Nat) : Nat := sy * Config.viewW + sx

/-- `w ≤ 32`, `h ≤ 32` and `w × h ≤ 32`, the product without wrap-around (41_tile_sprite_store.md R62). -/
def spriteDimsOk (w h : U8) : Bool :=
  decide (w.toNat ≤ Config.sprSlots) && decide (h.toNat ≤ Config.sprSlots) && decide (w.toNat * h.toNat ≤ Config.sprSlots)

end Sys2Proof.Machine
end

