-- ==== Sys2Proof/Machine/Ops.lean ====
section
/-! DEFINITION. The operations the meanings share: reading and writing the stores, the three environment interfaces
(00_scope.md R10), answering a port, taking a fault (60_exceptions.md R100), the faulted-state guard (R102), reset (R105).
A fault is never returned from (R102), so there is no return operation. -/

namespace Sys2Proof.Machine

abbrev Out := Host.Outcome State Fault Refusal

/-! ## Sparse lists of cells -/

/-- The entry listed at `k`. -/
def findCell {α : Type} (k : Nat) : List (Nat × α) → Option α
  | [] => none
  | c :: cs => if c.1 = k then some c.2 else findCell k cs

/-- `v` listed at `k`, in place. -/
def insertCell {α : Type} (k : Nat) (v : α) : List (Nat × α) → List (Nat × α)
  | [] => [(k, v)]
  | c :: cs =>
    if k < c.1 then (k, v) :: c :: cs
    else if k = c.1 then (k, v) :: cs
    else c :: insertCell k v cs

/-- Nothing listed at `k`. -/
def eraseCell {α : Type} (k : Nat) (cs : List (Nat × α)) : List (Nat × α) :=
  cs.filter fun c => c.1 != k

/-- The listed indices rise strictly. -/
def rising {α : Type} : List (Nat × α) → Bool
  | [] => true
  | c :: cs => cs.all (fun d => decide (c.1 < d.1)) && rising cs

/-! ## The block's stores -/

/-- An unlisted entry is 0, the reset contents (10_state.md R29). -/
def Store.read {w : Nat} (st : Store w) (k : Nat) : BitVec w :=
  (findCell k st).getD 0#w

/-- Writing 0, which an unlisted index reads as, removes the entry. -/
def Store.write {w : Nat} (st : Store w) (k : Nat) (v : BitVec w) : Store w :=
  if v = 0#w then eraseCell k st else insertCell k v st

/-- The values `vs` at the consecutive indices `base, base + 1, ...`. -/
def Store.writeRun {w : Nat} (st : Store w) (base : Nat) : List (BitVec w) → Store w
  | [] => st
  | v :: vs => (Store.writeRun st (base + 1) vs).write base v

/-- The writes of `ps`, first to last. -/
def Store.writeAll {w : Nat} (st : Store w) (ps : List (Nat × BitVec w)) : Store w :=
  ps.foldl (fun acc p => acc.write p.1 p.2) st

/-- Every entry extended with zero bits to 32 bits (00_scope.md R8). -/
def Store.widen {w : Nat} (st : Store w) : Store 32 :=
  st.map fun c => (c.1, c.2.setWidth 32)

/-- The canonical form of a store of `size` entries. -/
def Store.wf {w : Nat} (size : Nat) (st : Store w) : Bool :=
  rising st && st.all fun c => decide (c.1 < size) && c.2 != 0#w

/-! ## VM memory (the environment's) -/

/-- The byte at `a`; none where the VM has no readable byte (20_memory.md R31). -/
def Memory.read (m : Memory) (a : Nat) : Option U8 := findCell a m

/-- The VM's own store of a byte. The block never writes VM memory (R31); this builds the memory the VM leaves. -/
def Memory.write (m : Memory) (a : Nat) (b : U8) : Memory := insertCell a b m

/-- A memory that reads as the first listing of each address in `cs`, in canonical form. -/
def Memory.ofCells (cs : List Host.Cell) : Memory :=
  cs.foldr (fun c m => Memory.write m c.1 c.2) []

/-- The `n` bytes at `a .. a + n − 1`; none when one of them is not readable. -/
def Memory.readRun (m : Memory) (a : Nat) : Nat → Option (List U8)
  | 0 => some []
  | n + 1 =>
    match Memory.read m a, Memory.readRun m (a + 1) n with
    | some b, some bs => some (b :: bs)
    | _, _ => none

/-- The canonical form: addresses strictly rising. An unlisted address has no byte, so no entry equals what one reads as. -/
def Memory.wf (m : Memory) : Bool := rising m

/-! ## Environment interfaces (00_scope.md R10) -/

/-- `StackPop()`: none for `Empty`; else the byte and the state after the VM's stack has lost it (20_memory.md R32). -/
def stackPop (s : State) : Option (U8 × State) :=
  match s.vmStack with
  | [] => none
  | b :: rest => some (b, { s with vmStack := rest })

/-- `MemRead(addr, n)`: none for `Fail`, when fewer than `n` bytes are readable at `addr`; `PAGES × PAGE_BYTES` bytes exist
(20_memory.md R30, R31; 46_laws_and_summaries.md R92). -/
def memRead (s : State) (addr n : Nat) : Option (List U8) :=
  if addr + n ≤ Config.pages * s.pageBytes then Memory.readRun s.vmMem addr n else none

/-- The frame `PRESENT` hands over: `zext_32(FB[n])` for every `n` (45_present_dispatch.md R86). -/
def State.frame (s : State) : Store 32 := Store.widen s.fb

/-- All `FB_LEN` words of a frame, row-major (R87). -/
def frameWords (f : Store 32) : List U32 := (List.range Config.fbLen).map fun n => f.read n

/-- `DisplayPresent(frame)`: the frame is handed over; the answer is the environment's (R86). -/
def displayPresent (s : State) (frame : Store 32) : Bool × State :=
  (s.displayOk, { s with presents := ⟨frame, s.displayOk⟩ :: s.presents })

/-! ## Answers and faults -/

/-- A port answers (30_encoding.md R41). -/
def State.answer (s : State) (r : Response) : State := { s with responses := r :: s.responses }

/-- The state a fault leaves: `FCAUSE <- cause`, and nothing else of the block changes (60_exceptions.md R100 (a), (b)). -/
def State.recordFault (s : State) (c : Cause) : State := { s with fcause := c.code }

/-- `raise Fault(cause)` (R100). `s` holds the block as the transaction found it, and the environment effects already made
(R101). -/
def raiseFault (c : Cause) (s : State) : Out :=
  .next ((s.recordFault c).answer (.err c.code))

/-- The faulted-state guard of every operation but `STATGET` and `TICK` (R102 (a), (b)). -/
def unlessFaulted (s : State) (act : Out) : Out :=
  if s.fcause = 0 then act else .next (s.answer (.err s.fcause))

/-- One range check of an operand: the fault of its cause, or on (R99). -/
def require (ok : Bool) (c : Cause) (s : State) (act : Out) : Out :=
  if ok then act else raiseFault c s

/-- The values `f` gives on a list, none when it gives none on one of them. -/
def collect {α β : Type} (f : α → Option β) : List α → Option (List β)
  | [] => some []
  | a :: as =>
    match f a with
    | none => none
    | some b =>
      match collect f as with
      | none => none
      | some bs => some (b :: bs)

/-! ## Store accessors -/

/-- `PAL[p][i]`. -/
def State.palAt (s : State) (p i : Nat) : U8 := s.pal.read (palKey p i)
/-- `PAL[p][i] <- v`. -/
def State.setPal (s : State) (p i : Nat) (v : U8) : State := { s with pal := s.pal.write (palKey p i) v }

/-- `TILE[t][r]`. -/
def State.tileRow (s : State) (t r : Nat) : U32 := s.tile.read (tileKey t r)
/-- `TILE[t][r] <- row`. -/
def State.setTileRow (s : State) (t r : Nat) (row : U32) : State := { s with tile := s.tile.write (tileKey t r) row }

/-- `SPR[s].pal <- pal; SPR[s].w <- w; SPR[s].h <- h` (41_tile_sprite_store.md R62). -/
def State.setSprHeader (s : State) (sid : Nat) (pal : U4) (w h : U8) : State :=
  { s with sprPal := s.sprPal.write sid pal, sprW := s.sprW.write sid w, sprH := s.sprH.write sid h }

/-- `SPR[s].tile[k]`. -/
def State.sprTileAt (s : State) (sid k : Nat) : U13 := s.sprTile.read (sprTileKey sid k)
/-- `SPR[s].tile[k] <- t`. -/
def State.setSprTile (s : State) (sid k : Nat) (t : U13) : State :=
  { s with sprTile := s.sprTile.write (sprTileKey sid k) t }

/-- `BG[py][px]`. -/
def State.bgAt (s : State) (px py : Nat) : U13 := s.bg.read (bgKey px py)
/-- `BG[py][px] <- t`. -/
def State.setBg (s : State) (px py : Nat) (t : U13) : State := { s with bg := s.bg.write (bgKey px py) t }

/-- `FB[sy × 192 + sx]`. -/
def State.fbAt (s : State) (sx sy : Nat) : U24 := s.fb.read (fbKey sx sy)
/-- `FB[y × 192 + c] <- line[c]` for every column `c` of the line (44_row_write.md R79, 42_background.md R75). -/
def State.setFbRow (s : State) (y : Nat) (line : List U24) : State := { s with fb := s.fb.writeRun (fbKey 0 y) line }
/-- The pixels `ps` of a sprite, in order (43_sprite_engine.md R77). -/
def State.setFbPixels (s : State) (ps : List (Nat × U24)) : State := { s with fb := s.fb.writeAll ps }

/-! ## Colour (40_palette.md) -/

/-- `rgb332` (R53): red 3 bits by 36, green 3 bits by 36, blue 2 bits by 85; red in bits 23:16. -/
def rgb332 (b : U8) : U24 :=
  BitVec.ofNat 8 ((b.extractLsb' 5 3).toNat * Config.rStep)
    ++ BitVec.ofNat 8 ((b.extractLsb' 2 3).toNat * Config.gStep)
    ++ BitVec.ofNat 8 ((b.extractLsb' 0 2).toNat * Config.bStep)

/-- `pal_rgb(p, i) = rgb332(PAL[p][i])` (R54). -/
def State.palRgb (s : State) (p i : Nat) : U24 := rgb332 (s.palAt p i)

/-- `resolve_px(p, b)` (R55); none where it raises `Fault(0x33)`: an index of 16 or more in indexed mode. -/
def State.resolvePx (s : State) (p : Nat) (b : U8) : Option U24 :=
  if s.mode = 0 then
    if b.toNat < Config.palLen then some (s.palRgb p b.toNat) else none
  else some (rgb332 b)

/-! ## Tile fetch and scroll indexer -/

/-- Column `c` of a row word: `(row >> 4 × (7 − c)) & 0xF` (41_tile_sprite_store.md R59). -/
def nibble (row : U32) (c : Nat) : U4 := row.extractLsb' (4 * (7 - c)) 4

/-- `tile_px(t, r, c)` (R59); none outside its domain. -/
def State.tilePx (s : State) (t r c : Nat) : Option U4 :=
  if t < Config.nTile ∧ r < Config.tileEdge ∧ c < Config.tileEdge then some (nibble (s.tileRow t r) c) else none

/-- `tile_at(px, py)` (42_background.md R68); none outside the plane. -/
def State.tileAt (s : State) (px py : Nat) : Option U13 :=
  if px < Config.planeTW ∧ py < Config.planeTH then some (s.bgAt px py) else none

/-- `bg_px(sx, sy)` (R69): the scroll offset is the world position of the viewport's top-left pixel. -/
def State.bgPx (s : State) (sx sy : Nat) : Option U4 :=
  let wx := s.scx.toNat + sx
  let wy := s.scy.toNat + sy
  match s.tileAt (wx / Config.tileEdge) (wy / Config.tileEdge) with
  | none => none
  | some t => s.tilePx t.toNat (wy % Config.tileEdge) (wx % Config.tileEdge)

/-! ## Reset (70_reset_and_hazards.md R105) -/

/-- The reset input: every piece of the block's state at the value of R29. The parameters, the environment and what has
been answered and handed over are no state of the block (R28) and stay. -/
def State.resetBlock (s : State) : State :=
  { State.reset with
    rowBase := s.rowBase
    pageBytes := s.pageBytes
    vmStack := s.vmStack
    vmMem := s.vmMem
    displayOk := s.displayOk
    inbox := s.inbox
    responses := s.responses
    presents := s.presents }

end Sys2Proof.Machine
end

