-- ==== Sys2Proof/Machine/Background.lean ====
section
/-! DEFINITION. The background plane: `BGSET`, `BGGET`, `BGPAL`, `SCROLL`, `SCROLLGET`, `BGROW` (42_background.md). -/

namespace Sys2Proof.Machine

/-- `BGSET px, py, t` (R70): one cause for either coordinate. -/
def execBgset (px : U16) (py : U8) (t : U16) (s : State) : Out :=
  unlessFaulted s <|
  require (decide (px.toNat < Config.planeTW) && decide (py.toNat < Config.planeTH)) .oorPlane s <|
  require (decide (t.toNat < Config.nTile)) .oorTile s <|
  .next ((s.setBg px.toNat py.toNat (t.setWidth 13)).answer (.okData 0))

/-- `BGGET px, py` (R71). -/
def execBgget (px : U16) (py : U8) (s : State) : Out :=
  unlessFaulted s <|
  require (decide (px.toNat < Config.planeTW) && decide (py.toNat < Config.planeTH)) .oorPlane s <|
  .next (s.answer (.okData ((s.bgAt px.toNat py.toNat).setWidth 32)))

/-- `BGPAL p` (R72). -/
def execBgpal (p : U8) (s : State) : Out :=
  unlessFaulted s <|
  require (decide (p.toNat < Config.nPal)) .oorPalette s <|
  .next ((({ s with bgp := p.setWidth 4 } : State)).answer (.okData 0))

/-- `SCROLL x, y` (R73): each axis clamps independently, and nothing faults. -/
def execScroll (x y : U16) (s : State) : Out :=
  unlessFaulted s <|
  .next ((({ s with
    scx := BitVec.ofInt 8 (clamp (sint16 x) 0 Config.scxMax)
    scy := BitVec.ofInt 8 (clamp (sint16 y) 0 Config.scyMax) } : State)).answer (.okData 0))

/-- `SCROLLGET` (R74): `zext_16(SCX) ++ zext_16(SCY)`. -/
def execScrollget (s : State) : Out :=
  unlessFaulted s <|
  .next (s.answer (.okData (s.scx.setWidth 16 ++ s.scy.setWidth 16)))

/-- The pixel `line[sx]` of `BGROW`: always through the palette, whatever `MODE` is (R75). -/
def State.bgRgb (s : State) (sx sy : Nat) : Option U24 :=
  match s.bgPx sx sy with
  | none => none
  | some i => some (s.palRgb s.bgp.toNat i.toNat)

/-- `BGROW y` (R75): the 192 pixels are written together. -/
def execBgrow (y : U16) (s : State) : Out :=
  unlessFaulted s <|
  require (decide (y.toNat < Config.viewH)) .oorRow s <|
  match collect (fun sx => s.bgRgb sx y.toNat) (List.range Config.viewW) with
  | none => .fault .storeIndexOutOfRange
  | some line => .next ((s.setFbRow y.toNat line).answer (.okData 0))

end Sys2Proof.Machine
end

