-- ==== Sys2Proof/Machine/Palette.lean ====
section
/-! DEFINITION. The palette table and the colour converter: `PALSET`, `RESOLVE` (40_palette.md). -/

namespace Sys2Proof.Machine

/-- `PALSET p, i, v` (R56). -/
def execPalset (p : U16) (i v : U8) (s : State) : Out :=
  unlessFaulted s <|
  require (decide (p.toNat < Config.nPal)) .oorPalette s <|
  require (decide (i.toNat < Config.palLen)) .oorColour s <|
  .next ((s.setPal p.toNat i.toNat v).answer (.okData 0))

/-- `RESOLVE p, i` (R57): the palette id is checked in both modes. -/
def execResolve (p : U16) (i : U8) (s : State) : Out :=
  unlessFaulted s <|
  require (decide (p.toNat < Config.nPal)) .oorPalette s <|
  match s.resolvePx p.toNat i with
  | none => raiseFault .oorColour s
  | some rgb => .next (s.answer (.okData (rgb.setWidth 32)))

end Sys2Proof.Machine
end

