-- ==== Sys2Proof/Machine/PresentDispatch.lean ====
section
/-! DEFINITION. Present, no-operations, tick, status and the reserved table words (45_present_dispatch.md,
30_encoding.md R49). -/

namespace Sys2Proof.Machine

/-- `PRESENT` (R86): `FB` is handed over and stays as it is, whatever the backend answers. -/
def execPresent (s : State) : Out :=
  unlessFaulted s <|
  match displayPresent s s.frame with
  | (true, s') => .next (s'.answer .ok)
  | (false, s') => raiseFault .dbfPresent s'

/-- `NOP` (R88): the signal's value has no effect. -/
def execNop (_signal : U16) (s : State) : Out :=
  unlessFaulted s <|
  .next (s.answer .ok)

/-- `TICK q` (R89). A faulted block answers 0 (R102 (d)). -/
def execTick (q : U1) (s : State) : Out :=
  if s.fcause ≠ 0 then .next (s.answer (.haltReq 0))
  else if q = 1 ∧ s.haltSent = 0 then .next ((({ s with haltSent := 1 } : State)).answer (.haltReq 1))
  else .next (s.answer (.haltReq 0))

/-- `TNOP` (R90). -/
def execTnop (s : State) : Out :=
  unlessFaulted s <|
  .next (s.answer (.okData 0))

/-- `STATGET` (R91): the one operation the guard does not stop (R102 (c)). -/
def execStatget (s : State) : Out :=
  .next (s.answer (.okData s.status))

/-- A table word with a reserved `op` (R49 (b)). -/
def execReserved (_op : U8) (s : State) : Out :=
  unlessFaulted s <|
  raiseFault .pvReservedOp s

end Sys2Proof.Machine
end

