-- ==== Sys2Proof/Machine/RowWrite.lean ====
section
/-! DEFINITION. The framebuffer row-write controller: `WROW`, `MODESET`, `ROWPALSET` (44_row_write.md). -/

namespace Sys2Proof.Machine

/-- `write_row(row, bytes)` (R79): all pixels are resolved before any is stored. -/
def writeRow (row : U8) (bytes : List U8) (s : State) : Out :=
  require (decide (row.toNat < Config.viewH)) .oorRow s <|
  match collect (s.resolvePx s.rowpal.toNat) bytes with
  | none => raiseFault .oorColour s
  | some line => .next ((s.setFbRow row.toNat line).answer .ok)

/-- `WROW` (R80): pop, then memory, then row index, then pixels. A popped byte stays popped (R101). -/
def execWrow (s : State) : Out :=
  unlessFaulted s <|
  match stackPop s with
  | none => raiseFault .pvStackEmpty s
  | some (row, s') =>
    match memRead s' s'.rowBase Config.viewW with
    | none => raiseFault .pvMemShort s'
    | some bytes => writeRow row bytes s'

/-- `MODESET m` (R81). -/
def execModeset (m : U1) (s : State) : Out :=
  unlessFaulted s <|
  .next ((({ s with mode := m } : State)).answer (.okData 0))

/-- `ROWPALSET p` (R82). -/
def execRowpalset (p : U8) (s : State) : Out :=
  unlessFaulted s <|
  require (decide (p.toNat < Config.nPal)) .oorPalette s <|
  .next ((({ s with rowpal := p.setWidth 4 } : State)).answer (.okData 0))

end Sys2Proof.Machine
end

