-- ==== Sys2Proof/Machine/SpriteEngine.lean ====
section
/-! DEFINITION. The sprite layer engine: `SPRDRAW` (43_sprite_engine.md). -/

namespace Sys2Proof.Machine

/-- A pixel of a sprite: tile column and row, and pixel row and column in the tile (R76). -/
structure SpritePixel where
  ty : Nat
  tx : Nat
  r : Nat
  c : Nat
deriving DecidableEq, Repr

/-- The pixels of a sprite of `w × h` tiles, in the order of the four loops (R77). -/
def spritePixels (w h : Nat) : List SpritePixel :=
  (List.range h).flatMap fun ty =>
  (List.range w).flatMap fun tx =>
  (List.range Config.tileEdge).flatMap fun r =>
  (List.range Config.tileEdge).map fun c => ⟨ty, tx, r, c⟩

/-- `SPR[s].tile[k]` as a draw reads it; none for a slot that does not exist. -/
def State.sprSlot (s : State) (sid k : Nat) : Option U13 :=
  if k < Config.sprSlots then some (s.sprTileAt sid k) else none

/-- `sx = x + 8 × tx + c`, a mathematical integer (R77). -/
def pixelX (x : Int) (q : SpritePixel) : Int := x + Config.tileEdge * q.tx + q.c

/-- `sy = y + 8 × ty + r` (R77). -/
def pixelY (y : Int) (q : SpritePixel) : Int := y + Config.tileEdge * q.ty + q.r

/-- `0 ≤ sx < 192 and 0 ≤ sy < 128`, the clip test (R77). -/
def inViewport (sx sy : Int) : Bool :=
  decide (0 ≤ sx) && decide (sx < Config.viewW) && decide (0 ≤ sy) && decide (sy < Config.viewH)

/-- What one pixel writes (R77): nothing when it is clipped, else `FB[sy × 192 + sx] <- pal_rgb(P, tile_px(t, r, c))`; none
where a store would be indexed out of range. -/
def State.drawPixel (s : State) (sid : Nat) (x y : Int) (q : SpritePixel) : Option (List (Nat × U24)) :=
  match s.sprSlot sid (q.ty * (s.sprW.read sid).toNat + q.tx) with
  | none => none
  | some t =>
    match s.tilePx t.toNat q.r q.c with
    | none => none
    | some i =>
      if inViewport (pixelX x q) (pixelY y q) then
        some [(fbKey (pixelX x q).toNat (pixelY y q).toNat, s.palRgb (s.sprPal.read sid).toNat i.toNat)]
      else some []

/-- `SPRDRAW s, x, y` (R77). -/
def execSprdraw (sid x y : U16) (s : State) : Out :=
  unlessFaulted s <|
  require (decide (sid.toNat < Config.nSpr)) .oorSprite s <|
  match collect (s.drawPixel sid.toNat (sint16 x) (sint16 y))
      (spritePixels (s.sprW.read sid.toNat).toNat (s.sprH.read sid.toNat).toNat) with
  | none => .fault .storeIndexOutOfRange
  | some ps => .next ((s.setFbPixels ps.flatten).answer (.okData 0))

end Sys2Proof.Machine
end

