-- ==== Sys2Proof/Machine/TileSprite.lean ====
section
/-! DEFINITION. The tile store and the sprite table: `TILESET`, `TILEGET`, `SPRSETH`, `SPRSETT`, `SPRGETH`, `SPRGETT`
(41_tile_sprite_store.md). Nothing here asks whether a tile is referenced or has been written (R66). -/

namespace Sys2Proof.Machine

/-- `TILESET t, r, row` (R60). -/
def execTileset (t : U16) (r : U8) (row : U32) (s : State) : Out :=
  unlessFaulted s <|
  require (decide (t.toNat < Config.nTile)) .oorTile s <|
  require (decide (r.toNat < Config.tileEdge)) .oorTileRow s <|
  .next ((s.setTileRow t.toNat r.toNat row).answer (.okData 0))

/-- `TILEGET t, r` (R61). -/
def execTileget (t : U16) (r : U8) (s : State) : Out :=
  unlessFaulted s <|
  require (decide (t.toNat < Config.nTile)) .oorTile s <|
  require (decide (r.toNat < Config.tileEdge)) .oorTileRow s <|
  .next (s.answer (.okData (s.tileRow t.toNat r.toNat)))

/-- `SPRSETH s, pal, w, h` (R62): the tile slots are not changed. -/
def execSprseth (sid : U16) (pal w h : U8) (s : State) : Out :=
  unlessFaulted s <|
  require (decide (sid.toNat < Config.nSpr)) .oorSprite s <|
  require (decide (pal.toNat < Config.nPal)) .oorPalette s <|
  require (spriteDimsOk w h) .oorDim s <|
  .next ((s.setSprHeader sid.toNat (pal.setWidth 4) w h).answer (.okData 0))

/-- `SPRSETT s, k, t` (R63). -/
def execSprsett (sid : U16) (k : U8) (t : U16) (s : State) : Out :=
  unlessFaulted s <|
  require (decide (sid.toNat < Config.nSpr)) .oorSprite s <|
  require (decide (k.toNat < Config.sprSlots)) .oorSlot s <|
  require (decide (t.toNat < Config.nTile)) .oorTile s <|
  .next ((s.setSprTile sid.toNat k.toNat (t.setWidth 13)).answer (.okData 0))

/-- `SPRGETH s` (R64): `0x00 ++ zext_8(pal) ++ w ++ h`. -/
def execSprgeth (sid : U16) (s : State) : Out :=
  unlessFaulted s <|
  require (decide (sid.toNat < Config.nSpr)) .oorSprite s <|
  .next (s.answer (.okData
    (0#8 ++ (s.sprPal.read sid.toNat).setWidth 8 ++ s.sprW.read sid.toNat ++ s.sprH.read sid.toNat)))

/-- `SPRGETT s, k` (R65). -/
def execSprgett (sid : U16) (k : U8) (s : State) : Out :=
  unlessFaulted s <|
  require (decide (sid.toNat < Config.nSpr)) .oorSprite s <|
  require (decide (k.toNat < Config.sprSlots)) .oorSlot s <|
  .next (s.answer (.okData ((s.sprTileAt sid.toNat k.toNat).setWidth 32)))

end Sys2Proof.Machine
end

