-- ==== Sys2Proof/Machine/Dispatch.lean ====
section
/-! DEFINITION. One arm per operation. -/

namespace Sys2Proof.Machine

def exec (i : Instr) (s : State) : Host.Outcome State Fault Refusal :=
  match i with
  | .present => Sys2Proof.Machine.execPresent s
  | .wrow => Sys2Proof.Machine.execWrow s
  | .nop signal => Sys2Proof.Machine.execNop signal s
  | .tnop => Sys2Proof.Machine.execTnop s
  | .palset p idx v => Sys2Proof.Machine.execPalset p idx v s
  | .resolve p idx => Sys2Proof.Machine.execResolve p idx s
  | .tileset t r row => Sys2Proof.Machine.execTileset t r row s
  | .tileget t r => Sys2Proof.Machine.execTileget t r s
  | .sprseth sid pal w h => Sys2Proof.Machine.execSprseth sid pal w h s
  | .sprsett sid k t => Sys2Proof.Machine.execSprsett sid k t s
  | .sprgeth sid => Sys2Proof.Machine.execSprgeth sid s
  | .sprgett sid k => Sys2Proof.Machine.execSprgett sid k s
  | .bgset px py t => Sys2Proof.Machine.execBgset px py t s
  | .bgget px py => Sys2Proof.Machine.execBgget px py s
  | .bgpal p => Sys2Proof.Machine.execBgpal p s
  | .scroll x y => Sys2Proof.Machine.execScroll x y s
  | .scrollget => Sys2Proof.Machine.execScrollget s
  | .bgrow y => Sys2Proof.Machine.execBgrow y s
  | .sprdraw sid x y => Sys2Proof.Machine.execSprdraw sid x y s
  | .modeset m => Sys2Proof.Machine.execModeset m s
  | .rowpalset p => Sys2Proof.Machine.execRowpalset p s
  | .statget => Sys2Proof.Machine.execStatget s
  | .reserved op => Sys2Proof.Machine.execReserved op s
  | .tick q => Sys2Proof.Machine.execTick q s

end Sys2Proof.Machine
end

