-- ==== Sys2Proof/Machine/Inputs.lean ====
section
/-! DEFINITION. What one input does. A word is one whole transaction (20_memory.md R37). -/

namespace Sys2Proof.Machine

/-- One input, already taken from the inbox of `s` (assumption log 1 and 8). -/
def takeInput (x : Input) (s : State) : Out :=
  match x with
  | .word w => exec (decode w) s
  | .environment stack cells ok =>
    .next { s with vmStack := stack, vmMem := Memory.ofCells cells, displayOk := ok }
  | .reset => .next s.resetBlock

/-- The inbox with the row-sized word `w` to be presented next; as it was where no port takes such a word. -/
def inboxWithWord (nbits w : Nat) (inbox : List Input) : List Input :=
  match portWordOfBits nbits w with
  | some pw => .word pw :: inbox
  | none => inbox

end Sys2Proof.Machine
end

