-- ==== Sys2Proof/Machine/Step.lean ====
section
/-! DEFINITION. One step: the next input of the inbox. With none, the block is Idle (10_state.md R13) and nothing changes
(assumption log 2). -/

namespace Sys2Proof.Machine

def step (s : State) : Host.Outcome State Fault Refusal :=
  match s.inbox with
  | [] => .next s
  | x :: rest => takeInput x { s with inbox := rest }

/-- `s` with the row-sized word `w` as the next one presented, so that the next step runs it (assumption log 1). -/
def State.withFetchWord (s : State) (nbits w : Nat) : State :=
  { s with inbox := inboxWithWord nbits w s.inbox }

end Sys2Proof.Machine
end

