-- ==== Sys2Proof/Safety.lean ====
section
/-! DEFINITION. What claims mean by a good state: the invariants of 10_state.md R27, the canonical form and the capacity of
every store, and the faulted condition (60_exceptions.md R102). -/

namespace Sys2Proof.Machine

/-- The causes each operation can raise of its own (60_exceptions.md R97, "raised by"). -/
def raisable : Instr → List U8
  | .present => [0x21]
  | .wrow => [0x11, 0x12, 0x31, 0x33]
  | .nop _ => []
  | .tnop => []
  | .palset _ _ _ => [0x32, 0x33]
  | .resolve _ _ => [0x32, 0x33]
  | .tileset _ _ _ => [0x34, 0x36]
  | .tileget _ _ => [0x34, 0x36]
  | .sprseth _ _ _ _ => [0x35, 0x32, 0x39]
  | .sprsett _ _ _ => [0x35, 0x37, 0x34]
  | .sprgeth _ => [0x35]
  | .sprgett _ _ => [0x35, 0x37]
  | .bgset _ _ _ => [0x38, 0x34]
  | .bgget _ _ => [0x38]
  | .bgpal _ => [0x32]
  | .scroll _ _ => []
  | .scrollget => []
  | .bgrow _ => [0x31]
  | .sprdraw _ _ _ => [0x35]
  | .modeset _ => []
  | .rowpalset _ => [0x32]
  | .statget => []
  | .reserved _ => [0x13]
  | .tick _ => []

/-- The table-port operations that read, and answer `rdata` (30_encoding.md R41). -/
def reads : Instr → Bool
  | .present => false
  | .wrow => false
  | .nop _ => false
  | .tnop => false
  | .palset _ _ _ => false
  | .resolve _ _ => true
  | .tileset _ _ _ => false
  | .tileget _ _ => true
  | .sprseth _ _ _ _ => false
  | .sprsett _ _ _ => false
  | .sprgeth _ => true
  | .sprgett _ _ => true
  | .bgset _ _ _ => false
  | .bgget _ _ => true
  | .bgpal _ => false
  | .scroll _ _ => false
  | .scrollget => true
  | .bgrow _ => false
  | .sprdraw _ _ _ => false
  | .modeset _ => false
  | .rowpalset _ => false
  | .statget => true
  | .reserved _ => false
  | .tick _ => false

/-- R27 (a) to (d): the ranges that keep `BGROW` and `SPRDRAW` inside the stores. -/
structure Ranges (s : State) : Prop where
  scx_le : s.scx.toNat ≤ 192
  scy_le : s.scy.toNat ≤ 128
  bg_lt : ∀ px py, px < 48 → py < 32 → (s.bgAt px py).toNat < 6144
  sprTile_lt : ∀ n k, n < 256 → k < 32 → (s.sprTileAt n k).toNat < 6144
  sprDims : ∀ n, n < 256 →
    (s.sprW.read n).toNat ≤ 32 ∧ (s.sprH.read n).toNat ≤ 32 ∧ (s.sprW.read n).toNat * (s.sprH.read n).toNat ≤ 32

/-- R27 (e). -/
def KnownCause (s : State) : Prop := s.fcause = 0 ∨ ∃ c : Cause, s.fcause = c.code

/-- Every store is in canonical form and within its capacity (00_scope.md R5), and VM memory is in canonical form. -/
structure Canonical (s : State) : Prop where
  pal : Store.wf 256 s.pal = true
  tile : Store.wf 49152 s.tile = true
  sprPal : Store.wf 256 s.sprPal = true
  sprW : Store.wf 256 s.sprW = true
  sprH : Store.wf 256 s.sprH = true
  sprTile : Store.wf 8192 s.sprTile = true
  bg : Store.wf 1536 s.bg = true
  fb : Store.wf 24576 s.fb = true
  vmMem : Memory.wf s.vmMem = true

/-- The invariant every step keeps. -/
structure StateInv (s : State) : Prop where
  ranges : Ranges s
  cause : KnownCause s
  canonical : Canonical s

/-- The block right after reset: every piece of its state at the value of R29. Nothing is said of the parameters, the
environment, the inbox or what has been answered. -/
structure BlockAtReset (s : State) : Prop where
  pal : s.pal = []
  tile : s.tile = []
  sprPal : s.sprPal = []
  sprW : s.sprW = []
  sprH : s.sprH = []
  sprTile : s.sprTile = []
  bg : s.bg = []
  fb : s.fb = []
  scx : s.scx = 0
  scy : s.scy = 0
  bgp : s.bgp = 0
  mode : s.mode = 0
  rowpal : s.rowpal = 0
  fcause : s.fcause = 0
  haltSent : s.haltSent = 0

/-- The block's own state is the same in both: every piece of R29. -/
structure SameBlock (s t : State) : Prop where
  pal : t.pal = s.pal
  tile : t.tile = s.tile
  sprPal : t.sprPal = s.sprPal
  sprW : t.sprW = s.sprW
  sprH : t.sprH = s.sprH
  sprTile : t.sprTile = s.sprTile
  bg : t.bg = s.bg
  fb : t.fb = s.fb
  scx : t.scx = s.scx
  scy : t.scy = s.scy
  bgp : t.bgp = s.bgp
  mode : t.mode = s.mode
  rowpal : t.rowpal = s.rowpal
  fcause : t.fcause = s.fcause
  haltSent : t.haltSent = s.haltSent

/-- `k` steps, up to the first stop. -/
def run : Nat → State → Out
  | 0, s => .next s
  | k + 1, s =>
    match step s with
    | .next t => run k t
    | .fault f => .fault f
    | .refused r => .refused r

end Sys2Proof.Machine
end

