-- ==== Sys2Proof/Certificates/Slice0/Obligations.lean ====
section
/-! DEFINITION. The statements for the provers, one per claim, and the words they are said in. The numbers a statement
compares with are written out from the spec's own arithmetic, not taken from the meanings. -/

namespace Sys2Proof.Claims

open Sys2Proof.Machine

/-- The colour of a colour byte as a number `0xRRGGBB`: 3 bits by 36, 3 bits by 36, 2 bits by 85 (40_palette.md R53). -/
def rgbNat (b : U8) : Nat :=
  (b.toNat / 32) * 36 * 65536 + (b.toNat / 4 % 8) * 36 * 256 + (b.toNat % 4) * 85

/-- The colour of entry `i` of palette `p` (R54). -/
def colourNat (s : State) (p i : Nat) : Nat := rgbNat (s.palAt p i)

/-- The pixel at row `r`, column `c` of tile `t`: the hexadecimal digit `c` of the row word, from the left
(41_tile_sprite_store.md R59). -/
def tilePixelNat (s : State) (t r c : Nat) : Nat := (s.tileRow t r).toNat / 16 ^ (7 - c) % 16

/-- The colour index the background shows at a screen pixel (42_background.md R69). -/
def bgIndexNat (s : State) (sx sy : Nat) : Nat :=
  tilePixelNat s (s.bgAt ((s.scx.toNat + sx) / 8) ((s.scy.toNat + sy) / 8)).toNat
    ((s.scy.toNat + sy) % 8) ((s.scx.toNat + sx) % 8)

/-- Pixel `(lx, ly)` of sprite `sid`, its tiles row-major (43_sprite_engine.md R76), as a colour. -/
def spriteColourNat (s : State) (sid lx ly : Nat) : Nat :=
  colourNat s (s.sprPal.read sid).toNat
    (tilePixelNat s (s.sprTileAt sid (ly / 8 * (s.sprW.read sid).toNat + lx / 8)).toNat (ly % 8) (lx % 8))

/-- What an accepted byte of a row write becomes (40_palette.md R55). -/
def rowColourNat (s : State) (b : U8) : Nat :=
  if s.mode = 0 then colourNat s s.rowpal.toNat b.toNat else rgbNat b

/-- A fault is taken: `FCAUSE` gets the code, the port answers `ERR`, nothing else changes (60_exceptions.md R100). -/
def Raises (i : Instr) (s : State) (code : U8) : Prop :=
  exec i s = .next { s with fcause := code, responses := .err code :: s.responses }

/-- Every table word with this `op` is decoded to `f` of its other fields (30_encoding.md R43, R45, R47). -/
def ReadFrom (op : U8) (f : U16 → U8 → U32 → Instr) : Prop :=
  ∀ a b d, decode (tableWord op a b d) = f a b d

/-- The 19 values of `op` that R47 lists. -/
def opcodes : List Nat :=
  [0x00, 0x10, 0x11, 0x20, 0x21, 0x30, 0x31, 0x32, 0x33, 0x40, 0x41, 0x42, 0x43, 0x44, 0x45, 0x50, 0x60, 0x61, 0x70]

/-- `d[7:0]`, `d[15:8]`, `d[23:16]`. -/
def byteOf (k : Nat) (d : U32) : U8 := BitVec.ofNat 8 (d.toNat / 256 ^ k % 256)

/-- `d[15:0]`, `d[31:16]`. -/
def halfOf (k : Nat) (d : U32) : U16 := BitVec.ofNat 16 (d.toNat / 65536 ^ k % 65536)

/-- The 192 bytes from `ROW_BASE` lie in the one page, and these are they (20_memory.md R31). -/
def RowBytes (s : State) (bytes : Nat → U8) : Prop :=
  s.rowBase + 192 ≤ s.pageBytes ∧ ∀ c, c < 192 → s.vmMem.read (s.rowBase + c) = some (bytes c)

/-- Fewer than 192 bytes are readable at `ROW_BASE` (R31). -/
def RowBytesMissing (s : State) : Prop :=
  s.pageBytes < s.rowBase + 192 ∨ ∃ c, c < 192 ∧ s.vmMem.read (s.rowBase + c) = none

/-- The VM presents the words of these operations next, in order, and `rest` after them. -/
def Presents (s : State) (ops : List Instr) (rest : List Input) : Prop :=
  s.inbox = ops.map (fun i => .word (encode i)) ++ rest

/-- The answers a port gives (30_encoding.md R41). -/
def answersOf : Port → Response → Prop
  | .signal, r => r = .ok ∨ ∃ c, r = .err c
  | .table, r => (∃ v, r = .okData v) ∨ ∃ c, r = .err c
  | .tick, r => ∃ h, r = .haltReq h

/-- Every palette entry and every pixel reads 0, and the mode is indexed (70_reset_and_hazards.md R106). -/
structure AllBlack (s : State) : Prop where
  pal : ∀ p i, s.palAt p i = 0
  fb : ∀ sx sy, s.fbAt sx sy = 0
  mode : s.mode = 0

end Sys2Proof.Claims

open Sys2Proof Sys2Proof.Machine Sys2Proof.Claims

/-! ## Encoding -/

/-- 30_encoding.md R51 with R45 to R48: the word written for an operation is decoded to it, whatever its operands. -/
def Obligations.DecodeOfEncodeIsTheOperation : Prop :=
  ∀ i : Instr, i.wellFormed = true → decode (encode i) = i

/-- R50 (the spec's own inference from R46 to R48): every word of every port decodes to an operation of that port. -/
def Obligations.EveryWordDecodesOnItsPort : Prop :=
  ∀ w : PortWord, (decode w).wellFormed = true ∧ (decode w).port = w.port

/-- R47, with the operand fields of R45: `op` alone chooses the operation, every one of the 19 opcodes its own, and each of
the other 237 values is reserved, whatever the other fields hold. -/
def Obligations.TableDecoderFollowsTheOpcodeMap : Prop :=
  ReadFrom 0x00 (fun _ _ _ => .tnop) ∧
  ReadFrom 0x10 (fun a b d => .palset a b (byteOf 0 d)) ∧
  ReadFrom 0x11 (fun a b _ => .resolve a b) ∧
  ReadFrom 0x20 (fun a b d => .tileset a b d) ∧
  ReadFrom 0x21 (fun a b _ => .tileget a b) ∧
  ReadFrom 0x30 (fun a _ d => .sprseth a (byteOf 2 d) (byteOf 1 d) (byteOf 0 d)) ∧
  ReadFrom 0x31 (fun a b d => .sprsett a b (halfOf 0 d)) ∧
  ReadFrom 0x32 (fun a _ _ => .sprgeth a) ∧
  ReadFrom 0x33 (fun a b _ => .sprgett a b) ∧
  ReadFrom 0x40 (fun a b d => .bgset a b (halfOf 0 d)) ∧
  ReadFrom 0x41 (fun a b _ => .bgget a b) ∧
  ReadFrom 0x42 (fun _ _ d => .bgpal (byteOf 0 d)) ∧
  ReadFrom 0x43 (fun _ _ d => .scroll (halfOf 1 d) (halfOf 0 d)) ∧
  ReadFrom 0x44 (fun _ _ _ => .scrollget) ∧
  ReadFrom 0x45 (fun a _ _ => .bgrow a) ∧
  ReadFrom 0x50 (fun a _ d => .sprdraw a (halfOf 1 d) (halfOf 0 d)) ∧
  ReadFrom 0x60 (fun _ _ d => .modeset (BitVec.ofNat 1 (d.toNat % 2))) ∧
  ReadFrom 0x61 (fun _ _ d => .rowpalset (byteOf 0 d)) ∧
  ReadFrom 0x70 (fun _ _ _ => .statget) ∧
  (∀ op : U8, op.toNat ∉ opcodes → ReadFrom op fun _ _ _ => .reserved op) ∧
  ((List.range 256).filter fun op => !opcodes.contains op).length = 237

/-- R43: the word with the parts `op`, `a`, `b`, `d` has them at bits 63:56, 55:40, 39:32 and 31:0, and every table word is
the word of its four parts. -/
def Obligations.TableWordHasItsFieldsInPlace : Prop :=
  (∀ (op : U8) (a : U16) (b : U8) (d : U32), tableWord op a b d
      = .table (BitVec.ofNat 64 (op.toNat * 2 ^ 56 + a.toNat * 2 ^ 40 + b.toNat * 2 ^ 32 + d.toNat))) ∧
  ∀ w : U64, .table w = tableWord (BitVec.ofNat 8 (w.toNat / 2 ^ 56)) (BitVec.ofNat 16 (w.toNat / 2 ^ 40 % 2 ^ 16))
      (BitVec.ofNat 8 (w.toNat / 2 ^ 32 % 2 ^ 8)) (BitVec.ofNat 32 (w.toNat % 2 ^ 32))

/-- R46: signal 1 is `PRESENT`, signal 2 is `WROW`, every other value is `NOP`. -/
def Obligations.SignalDecoderComparesAllBits : Prop :=
  decode (.signal 0x0001) = .present ∧ decode (.signal 0x0002) = .wrow ∧
  ∀ n : U16, n.toNat ≠ 1 → n.toNat ≠ 2 → decode (.signal n) = .nop n

/-- Words of 95_test_vectors.md, one or more of every family, decode as written there. -/
def Obligations.SpecWordsDecodeAsWritten : Prop :=
  decode (.table 0x10000003000000AB) = .palset 0 3 0xAB ∧
  decode (.table 0x110000AB00000000) = .resolve 0 0xAB ∧
  decode (.table 0x2000050001234567) = .tileset 5 0 0x01234567 ∧
  decode (.table 0x3000070000020202) = .sprseth 7 2 2 2 ∧
  decode (.table 0x3100070300000064) = .sprsett 7 3 100 ∧
  decode (.table 0x40002F1F000017FF) = .bgset 47 31 6143 ∧
  decode (.table 0x43000000FFFF0005) = .scroll 0xFFFF 5 ∧
  decode (.table 0x45007F0000000000) = .bgrow 127 ∧
  decode (.table 0x50000700FFFD0078) = .sprdraw 7 0xFFFD 120 ∧
  decode (.table 0x60000000FFFFFFFE) = .modeset 0 ∧
  decode (.table 0x610000000000010F) = .rowpalset 15 ∧
  decode (.table 0x70FFFFFFFFFFFFFF) = .statget ∧
  decode (.table 0x4600000000000000) = .reserved 0x46

/-! ## The step -/

/-- R41, 20_memory.md R37: the next word presented is run as one whole transaction. That the words wait in `inbox` is the
model's choice (assumption log 1). -/
def Obligations.StepRunsThePresentedWord : Prop :=
  ∀ (s : State) (w : PortWord) (rest : List Input),
    s.inbox = .word w :: rest → step s = exec (decode w) { s with inbox := rest }

/-- What a step does when no word is next: the model's choices of assumption log 1 (the environment changes), 2 (nothing is
presented) and 8 (reset). -/
def Obligations.StepWithoutAWord : Prop :=
  (∀ s : State, s.inbox = [] → step s = .next s) ∧
  (∀ (s : State) (stack : List U8) (cells : List Host.Cell) (ok : Bool) (rest : List Input),
    s.inbox = .environment stack cells ok :: rest →
      ∃ m, step s = .next { s with inbox := rest, vmStack := stack, vmMem := m, displayOk := ok } ∧
        Memory.wf m = true ∧
        ∀ a, m.read a = (cells.find? fun c => c.1 == a).map fun c => c.2) ∧
  (∀ (s : State) (rest : List Input), s.inbox = .reset :: rest →
    ∃ t, step s = .next t ∧ BlockAtReset t ∧
      t.rowBase = s.rowBase ∧ t.pageBytes = s.pageBytes ∧ t.vmStack = s.vmStack ∧ t.vmMem = s.vmMem ∧
      t.displayOk = s.displayOk ∧ t.inbox = rest ∧ t.responses = s.responses ∧ t.presents = s.presents)

/-- R41: one answer per word, of its port's kind; a table operation that does not read answers `rdata` 0. -/
def Obligations.EveryWordIsAnsweredOnce : Prop :=
  ∀ (i : Instr) (s t : State), exec i s = .next t →
    ∃ r, t.responses = r :: s.responses ∧ answersOf i.port r ∧
      (reads i = false → ∀ v, r = .okData v → v = 0) ∧ t.inbox = s.inbox

/-! ## Invariants -/

/-- 10_state.md R27 and the canonical form of every store (the model's own, assumption log 10): every step keeps them. -/
def Obligations.EveryStepKeepsTheInvariant : Prop :=
  ∀ s t : State, StateInv s → step s = .next t → StateInv t

/-- R27 at reset (R29); the canonical form of the stores is the model's own (assumption log 10). -/
def Obligations.ResetMeetsTheInvariant : Prop := StateInv State.reset

/-- R27 "`BGROW` and `SPRDRAW` never index a store out of range": under the invariant no step stops. -/
def Obligations.NoStepStopsUnderTheInvariant : Prop :=
  ∀ s : State, StateInv s → ∃ t, step s = .next t

/-- R27 (the spec's own inference): whatever is presented to a block just reset, in any environment and with any
parameters, the run never stops and every state of it is in range and canonical (the latter the model's own, assumption
log 10). -/
def Obligations.RunsFromResetStayInRange : Prop :=
  ∀ s : State, BlockAtReset s → Memory.wf s.vmMem = true → ∀ k, ∃ t, run k s = .next t ∧ StateInv t

/-- R29: every piece of the block's state reads 0 after reset. -/
def Obligations.ResetLeavesEveryValueZero : Prop :=
  (∀ p i, State.reset.palAt p i = 0) ∧ (∀ t r, State.reset.tileRow t r = 0) ∧
  (∀ n, State.reset.sprPal.read n = 0 ∧ State.reset.sprW.read n = 0 ∧ State.reset.sprH.read n = 0) ∧
  (∀ n k, State.reset.sprTileAt n k = 0) ∧ (∀ px py, State.reset.bgAt px py = 0) ∧
  (∀ sx sy, State.reset.fbAt sx sy = 0) ∧
  State.reset.scx = 0 ∧ State.reset.scy = 0 ∧ State.reset.bgp = 0 ∧ State.reset.mode = 0 ∧ State.reset.rowpal = 0 ∧
  State.reset.fcause = 0 ∧ State.reset.haltSent = 0

/-! ## Faults -/

/-- 60_exceptions.md R102: a faulted block answers the recorded cause on the signal and table ports, `STATUS` to `STATGET`,
0 to a tick, and changes nothing. -/
def Obligations.FaultedBlockRefusesEveryWord : Prop :=
  ∀ (i : Instr) (s : State), s.fcause ≠ 0 →
    exec i s = .next { s with responses :=
      (if i = .statget then .okData s.status
       else if i.port = .tick then .haltReq 0
       else .err s.fcause) :: s.responses }

/-- R102, R105: only reset leaves the faulted condition, however many words come; the block and the frames handed over
stay as they are. -/
def Obligations.FaultedUntilReset : Prop :=
  ∀ (k : Nat) (s : State), s.fcause ≠ 0 → Input.reset ∉ s.inbox.take k →
    ∃ t, run k s = .next t ∧ SameBlock s t ∧ t.rowBase = s.rowBase ∧ t.pageBytes = s.pageBytes ∧ t.presents = s.presents

/-- R100, R101 (the latter the spec's own inference): a faulting transaction changes `FCAUSE` and no other state of the
block; of the environment, a byte popped by `WROW` stays popped, and a frame the backend did not take was handed over
(that it is listed so is the model's choice, assumption log 6). -/
def Obligations.AFaultChangesOnlyTheCause : Prop :=
  ∀ (i : Instr) (s t : State), s.fcause = 0 → exec i s = .next t → t.fcause ≠ 0 →
    t = { s with fcause := t.fcause, responses := .err t.fcause :: s.responses, vmStack := t.vmStack,
                 presents := t.presents } ∧
    (t.vmStack = s.vmStack ∨ i = .wrow ∧ ∃ b, s.vmStack = b :: t.vmStack) ∧
    (t.presents = s.presents ∨ i = .present ∧ t.presents = ⟨s.frame, false⟩ :: s.presents)

/-- R97: the causes each operation can raise, and the seven that can raise none. -/
def Obligations.EachOperationRaisesOnlyItsCauses : Prop :=
  ∀ (i : Instr) (s t : State), s.fcause = 0 → exec i s = .next t → t.fcause ≠ 0 → t.fcause ∈ raisable i

/-! ## Palette and colour -/

/-- 40_palette.md R53. -/
def Obligations.ColourConverterScalesTheThreeFields : Prop :=
  ∀ b : U8, (rgb332 b).toNat = rgbNat b ∧
    ((rgb332 b).extractLsb' 16 8).toNat = b.toNat / 32 * 36 ∧
    ((rgb332 b).extractLsb' 8 8).toNat = b.toNat / 4 % 8 * 36 ∧
    ((rgb332 b).extractLsb' 0 8).toNat = b.toNat % 4 * 85

/-- 40_palette.md R56. -/
def Obligations.PalsetWritesOneEntry : Prop :=
  ReadFrom 0x10 (fun a b d => .palset a b (byteOf 0 d)) ∧
  ∀ (p : U16) (i v : U8) (s : State), s.fcause = 0 →
    (p.toNat < 16 → i.toNat < 16 →
      ∃ t, exec (.palset p i v) s = .next t ∧
        t = { s with pal := t.pal, responses := .okData 0 :: s.responses } ∧
        ∀ q j, q < 16 → j < 16 → t.palAt q j = if q = p.toNat ∧ j = i.toNat then v else s.palAt q j) ∧
    (16 ≤ p.toNat → Raises (.palset p i v) s 0x32) ∧
    (p.toNat < 16 → 16 ≤ i.toNat → Raises (.palset p i v) s 0x33)

/-- 40_palette.md R57 with R55. -/
def Obligations.ResolveAnswersTheColour : Prop :=
  ReadFrom 0x11 (fun a b _ => .resolve a b) ∧
  ∀ (p : U16) (i : U8) (s : State), s.fcause = 0 →
    (p.toNat < 16 → (s.mode = 0 → i.toNat < 16) →
      ∃ v : U32, exec (.resolve p i) s = .next { s with responses := .okData v :: s.responses } ∧
        v.toNat = if s.mode = 0 then colourNat s p.toNat i.toNat else rgbNat i) ∧
    (16 ≤ p.toNat → Raises (.resolve p i) s 0x32) ∧
    (p.toNat < 16 → s.mode = 0 → 16 ≤ i.toNat → Raises (.resolve p i) s 0x33)

/-- 40_palette.md R58 (the spec's own inference): in indexed mode the entries of a palette are what `RESOLVE` answers and
what a row write of the bytes 0 to 15 stores, in order. -/
def Obligations.PaletteRoundTrip : Prop :=
  ∀ (p : U16) (s : State), s.fcause = 0 → s.mode = 0 → p.toNat < 16 →
    (∀ i : U8, i.toNat < 16 → ∃ v : U32,
      exec (.resolve p i) s = .next { s with responses := .okData v :: s.responses } ∧
        v.toNat = colourNat s p.toNat i.toNat) ∧
    (∀ (row : U8) (rest : List U8) (bytes : Nat → U8), s.rowpal.toNat = p.toNat → s.vmStack = row :: rest →
      RowBytes s bytes → row.toNat < 128 → (∀ c, c < 192 → (bytes c).toNat < 16) →
      (∀ c, c < 16 → (bytes c).toNat = c) →
      ∃ t, exec .wrow s = .next t ∧ ∀ c, c < 16 → (t.fbAt c row.toNat).toNat = colourNat s p.toNat c)

/-! ## Tile store and sprite table -/

/-- 41_tile_sprite_store.md R60, and R59 for the pixels of the row written. -/
def Obligations.TilesetWritesOneRow : Prop :=
  ReadFrom 0x20 (fun a b d => .tileset a b d) ∧
  ∀ (t : U16) (r : U8) (row : U32) (s : State), s.fcause = 0 →
    (t.toNat < 6144 → r.toNat < 8 →
      ∃ u, exec (.tileset t r row) s = .next u ∧
        u = { s with tile := u.tile, responses := .okData 0 :: s.responses } ∧
        (∀ n q, n < 6144 → q < 8 →
          u.tileRow n q = if n = t.toNat ∧ q = r.toNat then row else s.tileRow n q) ∧
        ∀ c, c < 8 → ∃ i : U4, u.tilePx t.toNat r.toNat c = some i ∧ i.toNat = row.toNat / 16 ^ (7 - c) % 16) ∧
    (6144 ≤ t.toNat → Raises (.tileset t r row) s 0x34) ∧
    (t.toNat < 6144 → 8 ≤ r.toNat → Raises (.tileset t r row) s 0x36)

/-- R61. -/
def Obligations.TilegetAnswersTheRow : Prop :=
  ReadFrom 0x21 (fun a b _ => .tileget a b) ∧
  ∀ (t : U16) (r : U8) (s : State), s.fcause = 0 →
    (t.toNat < 6144 → r.toNat < 8 →
      exec (.tileget t r) s = .next { s with responses := .okData (s.tileRow t.toNat r.toNat) :: s.responses }) ∧
    (6144 ≤ t.toNat → Raises (.tileget t r) s 0x34) ∧
    (t.toNat < 6144 → 8 ≤ r.toNat → Raises (.tileget t r) s 0x36)

/-- R62. -/
def Obligations.SprsethWritesTheHeader : Prop :=
  ReadFrom 0x30 (fun a _ d => .sprseth a (byteOf 2 d) (byteOf 1 d) (byteOf 0 d)) ∧
  ∀ (sid : U16) (pal w h : U8) (s : State), s.fcause = 0 →
    (sid.toNat < 256 → pal.toNat < 16 → w.toNat ≤ 32 → h.toNat ≤ 32 → w.toNat * h.toNat ≤ 32 →
      ∃ t, exec (.sprseth sid pal w h) s = .next t ∧
        t = { s with sprPal := t.sprPal, sprW := t.sprW, sprH := t.sprH, responses := .okData 0 :: s.responses } ∧
        ∀ n, n < 256 →
          ((t.sprPal.read n).toNat = if n = sid.toNat then pal.toNat else (s.sprPal.read n).toNat) ∧
          (t.sprW.read n = if n = sid.toNat then w else s.sprW.read n) ∧
          (t.sprH.read n = if n = sid.toNat then h else s.sprH.read n)) ∧
    (256 ≤ sid.toNat → Raises (.sprseth sid pal w h) s 0x35) ∧
    (sid.toNat < 256 → 16 ≤ pal.toNat → Raises (.sprseth sid pal w h) s 0x32) ∧
    (sid.toNat < 256 → pal.toNat < 16 → 32 < w.toNat ∨ 32 < h.toNat ∨ 32 < w.toNat * h.toNat →
      Raises (.sprseth sid pal w h) s 0x39)

/-- R63. -/
def Obligations.SprsettWritesOneSlot : Prop :=
  ReadFrom 0x31 (fun a b d => .sprsett a b (halfOf 0 d)) ∧
  ∀ (sid : U16) (k : U8) (t : U16) (s : State), s.fcause = 0 →
    (sid.toNat < 256 → k.toNat < 32 → t.toNat < 6144 →
      ∃ u, exec (.sprsett sid k t) s = .next u ∧
        u = { s with sprTile := u.sprTile, responses := .okData 0 :: s.responses } ∧
        ∀ n j, n < 256 → j < 32 →
          (u.sprTileAt n j).toNat = if n = sid.toNat ∧ j = k.toNat then t.toNat else (s.sprTileAt n j).toNat) ∧
    (256 ≤ sid.toNat → Raises (.sprsett sid k t) s 0x35) ∧
    (sid.toNat < 256 → 32 ≤ k.toNat → Raises (.sprsett sid k t) s 0x37) ∧
    (sid.toNat < 256 → k.toNat < 32 → 6144 ≤ t.toNat → Raises (.sprsett sid k t) s 0x34)

/-- R64. -/
def Obligations.SprgethAnswersTheHeader : Prop :=
  ReadFrom 0x32 (fun a _ _ => .sprgeth a) ∧
  ∀ (sid : U16) (s : State), s.fcause = 0 →
    (sid.toNat < 256 →
      ∃ v : U32, exec (.sprgeth sid) s = .next { s with responses := .okData v :: s.responses } ∧
        v.toNat = (s.sprPal.read sid.toNat).toNat * 65536 + (s.sprW.read sid.toNat).toNat * 256
          + (s.sprH.read sid.toNat).toNat) ∧
    (256 ≤ sid.toNat → Raises (.sprgeth sid) s 0x35)

/-- R65. -/
def Obligations.SprgettAnswersTheSlot : Prop :=
  ReadFrom 0x33 (fun a b _ => .sprgett a b) ∧
  ∀ (sid : U16) (k : U8) (s : State), s.fcause = 0 →
    (sid.toNat < 256 → k.toNat < 32 →
      ∃ v : U32, exec (.sprgett sid k) s = .next { s with responses := .okData v :: s.responses } ∧
        v.toNat = (s.sprTileAt sid.toNat k.toNat).toNat) ∧
    (256 ≤ sid.toNat → Raises (.sprgett sid k) s 0x35) ∧
    (sid.toNat < 256 → 32 ≤ k.toNat → Raises (.sprgett sid k) s 0x37)

/-! ## Background -/

/-- 42_background.md R70. -/
def Obligations.BgsetWritesOneMapEntry : Prop :=
  ReadFrom 0x40 (fun a b d => .bgset a b (halfOf 0 d)) ∧
  ∀ (px : U16) (py : U8) (t : U16) (s : State), s.fcause = 0 →
    (px.toNat < 48 → py.toNat < 32 → t.toNat < 6144 →
      ∃ u, exec (.bgset px py t) s = .next u ∧
        u = { s with bg := u.bg, responses := .okData 0 :: s.responses } ∧
        ∀ x y, x < 48 → y < 32 →
          (u.bgAt x y).toNat = if x = px.toNat ∧ y = py.toNat then t.toNat else (s.bgAt x y).toNat) ∧
    (48 ≤ px.toNat ∨ 32 ≤ py.toNat → Raises (.bgset px py t) s 0x38) ∧
    (px.toNat < 48 → py.toNat < 32 → 6144 ≤ t.toNat → Raises (.bgset px py t) s 0x34)

/-- R71. -/
def Obligations.BggetAnswersTheMapEntry : Prop :=
  ReadFrom 0x41 (fun a b _ => .bgget a b) ∧
  ∀ (px : U16) (py : U8) (s : State), s.fcause = 0 →
    (px.toNat < 48 → py.toNat < 32 →
      ∃ v : U32, exec (.bgget px py) s = .next { s with responses := .okData v :: s.responses } ∧
        v.toNat = (s.bgAt px.toNat py.toNat).toNat) ∧
    (48 ≤ px.toNat ∨ 32 ≤ py.toNat → Raises (.bgget px py) s 0x38)

/-- R72. -/
def Obligations.BgpalSetsThePlanePalette : Prop :=
  ReadFrom 0x42 (fun _ _ d => .bgpal (byteOf 0 d)) ∧
  ∀ (p : U8) (s : State), s.fcause = 0 →
    (p.toNat < 16 →
      ∃ q : U4, q.toNat = p.toNat ∧
        exec (.bgpal p) s = .next { s with bgp := q, responses := .okData 0 :: s.responses }) ∧
    (16 ≤ p.toNat → Raises (.bgpal p) s 0x32)

/-- R73: each axis clamps to its near edge 0 and its far edge 192 or 128, and nothing faults. -/
def Obligations.ScrollClampsEachAxis : Prop :=
  ReadFrom 0x43 (fun _ _ d => .scroll (halfOf 1 d) (halfOf 0 d)) ∧
  ∀ (x y : U16) (s : State), s.fcause = 0 →
    ∃ cx cy : U8, exec (.scroll x y) s
        = .next { s with scx := cx, scy := cy, responses := .okData 0 :: s.responses } ∧
      (x.toInt ≤ 0 → cx.toNat = 0) ∧ (0 ≤ x.toInt → x.toInt ≤ 192 → (cx.toNat : Int) = x.toInt) ∧
      (192 ≤ x.toInt → cx.toNat = 192) ∧
      (y.toInt ≤ 0 → cy.toNat = 0) ∧ (0 ≤ y.toInt → y.toInt ≤ 128 → (cy.toNat : Int) = y.toInt) ∧
      (128 ≤ y.toInt → cy.toNat = 128)

/-- R74. -/
def Obligations.ScrollgetAnswersTheOffset : Prop :=
  ReadFrom 0x44 (fun _ _ _ => .scrollget) ∧
  ∀ s : State, s.fcause = 0 →
    ∃ v : U32, exec .scrollget s = .next { s with responses := .okData v :: s.responses } ∧
      v.toNat = s.scx.toNat * 65536 + s.scy.toNat

/-- R75 with R68, R69: the row shows the plane under the scroll offset through the plane's palette; no other row changes. -/
def Obligations.BgrowRendersOneRow : Prop :=
  ReadFrom 0x45 (fun a _ _ => .bgrow a) ∧
  ∀ (y : U16) (s : State), s.fcause = 0 →
    (Ranges s → y.toNat < 128 →
      ∃ t, exec (.bgrow y) s = .next t ∧
        t = { s with fb := t.fb, responses := .okData 0 :: s.responses } ∧
        ∀ sx sy, sx < 192 → sy < 128 →
          (t.fbAt sx sy).toNat =
            if sy = y.toNat then colourNat s s.bgp.toNat (bgIndexNat s sx sy) else (s.fbAt sx sy).toNat) ∧
    (128 ≤ y.toNat → Raises (.bgrow y) s 0x31)

/-- R52 `BGFRAME` with R75: 128 words render the whole viewport from the plane, in 128 steps. -/
def Obligations.BgframeRendersTheWholeViewport : Prop :=
  ∀ (s : State) (rest : List Input), s.fcause = 0 → Ranges s → Presents s bgFrameOps rest →
    ∃ t, run 128 s = .next t ∧
      t = { s with fb := t.fb, inbox := rest, responses := List.replicate 128 (.okData 0) ++ s.responses } ∧
      ∀ sx sy, sx < 192 → sy < 128 → (t.fbAt sx sy).toNat = colourNat s s.bgp.toNat (bgIndexNat s sx sy)

/-- R52 `SETTILE` with R60: eight words write the eight rows of one tile and no other. -/
def Obligations.SettileWritesAWholeTile : Prop :=
  ∀ (t : U16) (rows : Vector U32 8) (s : State) (rest : List Input), s.fcause = 0 → t.toNat < 6144 →
    Presents s (setTileOps t rows) rest →
    ∃ u, run 8 s = .next u ∧
      u = { s with tile := u.tile, inbox := rest, responses := List.replicate 8 (.okData 0) ++ s.responses } ∧
      ∀ n r, n < 6144 → (hr : r < 8) → u.tileRow n r = if n = t.toNat then rows[r] else s.tileRow n r

/-! ## Sprites -/

/-- 43_sprite_engine.md R77 with R76: the pixels of the sprite that fall inside the viewport, each through the sprite's
palette, and no others; every index is drawn (R78). -/
def Obligations.SprdrawComposesTheSprite : Prop :=
  ReadFrom 0x50 (fun a _ d => .sprdraw a (halfOf 1 d) (halfOf 0 d)) ∧
  ∀ (sid x y : U16) (s : State), s.fcause = 0 →
    (Ranges s → sid.toNat < 256 →
      ∃ t, exec (.sprdraw sid x y) s = .next t ∧
        t = { s with fb := t.fb, responses := .okData 0 :: s.responses } ∧
        ∀ sx sy : Nat, sx < 192 → sy < 128 →
          let lx : Int := sx - x.toInt
          let ly : Int := sy - y.toInt
          (t.fbAt sx sy).toNat =
            if 0 ≤ lx ∧ lx < 8 * (s.sprW.read sid.toNat).toNat ∧ 0 ≤ ly ∧ ly < 8 * (s.sprH.read sid.toNat).toNat
            then spriteColourNat s sid.toNat lx.toNat ly.toNat
            else (s.fbAt sx sy).toNat) ∧
    (256 ≤ sid.toNat → Raises (.sprdraw sid x y) s 0x35)

/-- 40_palette.md R54: what `BGROW` and `SPRDRAW` draw does not depend on `MODE` or `ROWPAL`. -/
def Obligations.TileDrawsIgnoreModeAndRowPalette : Prop :=
  ∀ (i : Instr) (s t : State) (m : U1) (q : U4),
    ((∃ y, i = .bgrow y) ∨ ∃ sid x y, i = .sprdraw sid x y) → exec i s = .next t →
    exec i { s with mode := m, rowpal := q } = .next { t with mode := m, rowpal := q }

/-! ## Row writes -/

/-- 44_row_write.md R80 with R79: the popped byte is the row, the 192 bytes at `ROW_BASE` become its pixels and no other
pixel changes; or one of four faults, in the order they are tested, a byte popped staying popped. -/
def Obligations.WrowWritesOneRowOrFaults : Prop :=
  decode (.signal 0x0002) = .wrow ∧
  ∀ s : State, s.fcause = 0 →
    (s.vmStack = [] → Raises .wrow s 0x11) ∧
    ∀ (row : U8) (rest : List U8), s.vmStack = row :: rest →
      (RowBytesMissing s → exec .wrow s
        = .next { s with vmStack := rest, fcause := 0x12, responses := .err 0x12 :: s.responses }) ∧
      ∀ bytes : Nat → U8, RowBytes s bytes →
        (128 ≤ row.toNat → exec .wrow s
          = .next { s with vmStack := rest, fcause := 0x31, responses := .err 0x31 :: s.responses }) ∧
        (row.toNat < 128 → s.mode = 0 → (∃ c, c < 192 ∧ 16 ≤ (bytes c).toNat) → exec .wrow s
          = .next { s with vmStack := rest, fcause := 0x33, responses := .err 0x33 :: s.responses }) ∧
        (row.toNat < 128 → (s.mode = 0 → ∀ c, c < 192 → (bytes c).toNat < 16) →
          ∃ t, exec .wrow s = .next t ∧
            t = { s with fb := t.fb, vmStack := rest, responses := .ok :: s.responses } ∧
            ∀ sx sy, sx < 192 → sy < 128 →
              (t.fbAt sx sy).toNat = if sy = row.toNat then rowColourNat s (bytes sx) else (s.fbAt sx sy).toNat)

/-- R83 (the spec's own inference): the stored row is a function of the bytes, `MODE`, `ROWPAL` and `PAL[ROWPAL]`, and so
is whether it is stored. -/
def Obligations.RowWriteDependsOnBytesModeAndRowPalette : Prop :=
  ∀ (s s' t t' : State) (row : U8) (rest rest' : List U8), s.fcause = 0 → s'.fcause = 0 →
    s.vmStack = row :: rest → s'.vmStack = row :: rest' →
    s'.mode = s.mode → s'.rowpal = s.rowpal → (∀ i, i < 16 → s'.palAt s.rowpal.toNat i = s.palAt s.rowpal.toNat i) →
    s'.rowBase = s.rowBase → s'.pageBytes = s.pageBytes →
    (∀ c, c < 192 → s'.vmMem.read (s.rowBase + c) = s.vmMem.read (s.rowBase + c)) →
    exec .wrow s = .next t → exec .wrow s' = .next t' →
    t'.fcause = t.fcause ∧ (t.fcause = 0 → ∀ c, c < 192 → t'.fbAt c row.toNat = t.fbAt c row.toNat)

/-- R83 (the spec's own inference): writing the same row twice from the same bytes leaves what writing it once leaves. -/
def Obligations.RowWriteTwiceIsOnce : Prop :=
  ∀ (s t : State) (row : U8) (rest : List U8), s.fcause = 0 → s.vmStack = row :: row :: rest →
    exec .wrow s = .next t → t.fcause = 0 →
    ∃ u, exec .wrow t = .next u ∧ u.fcause = 0 ∧ u.vmStack = rest ∧
      ∀ sx sy, sx < 192 → sy < 128 → u.fbAt sx sy = t.fbAt sx sy

/-- R84 (the spec's own inference): a row index of 128 or more ends in a fault and writes no pixel. -/
def Obligations.RowIndexOutOfBoundsWritesNothing : Prop :=
  ∀ (s t : State) (row : U8) (rest : List U8), s.fcause = 0 → s.vmStack = row :: rest → 128 ≤ row.toNat →
    exec .wrow s = .next t → (t.fcause = 0x31 ∨ t.fcause = 0x12) ∧ t.fb = s.fb

/-- R81. -/
def Obligations.ModesetChoosesThePolicy : Prop :=
  ReadFrom 0x60 (fun _ _ d => .modeset (BitVec.ofNat 1 (d.toNat % 2))) ∧
  ∀ (m : U1) (s : State), s.fcause = 0 →
    exec (.modeset m) s = .next { s with mode := m, responses := .okData 0 :: s.responses }

/-- R82. -/
def Obligations.RowpalsetSetsTheRowPalette : Prop :=
  ReadFrom 0x61 (fun _ _ d => .rowpalset (byteOf 0 d)) ∧
  ∀ (p : U8) (s : State), s.fcause = 0 →
    (p.toNat < 16 →
      ∃ q : U4, q.toNat = p.toNat ∧
        exec (.rowpalset p) s = .next { s with rowpal := q, responses := .okData 0 :: s.responses }) ∧
    (16 ≤ p.toNat → Raises (.rowpalset p) s 0x32)

/-! ## Present, no-operations, tick, status, reserved words -/

/-- 45_present_dispatch.md R86, R87: the whole framebuffer is handed over, one 32-bit word `0x00RRGGBB` per pixel, row-major;
the answer is the backend's; `FB` stays. That a frame handed over is listed, and one the backend did not take is listed as
not accepted, is the model's choice (assumption log 6). -/
def Obligations.PresentHandsOverTheFramebuffer : Prop :=
  ∀ s : State, s.fcause = 0 →
    ∃ f : Store 32, (frameWords f).length = 24576 ∧
      (∀ sx sy, sx < 192 → sy < 128 →
        ((frameWords f)[sy * 192 + sx]?).map BitVec.toNat = some (s.fbAt sx sy).toNat) ∧
      (s.displayOk = true → exec .present s
        = .next { s with presents := ⟨f, true⟩ :: s.presents, responses := .ok :: s.responses }) ∧
      (s.displayOk = false → exec .present s
        = .next { s with presents := ⟨f, false⟩ :: s.presents, fcause := 0x21, responses := .err 0x21 :: s.responses })

/-- R88. -/
def Obligations.NopSignalsChangeNothing : Prop :=
  ∀ (n : U16) (s : State), n.toNat ≠ 1 → n.toNat ≠ 2 → s.fcause = 0 →
    decode (.signal n) = .nop n ∧ exec (.nop n) s = .next { s with responses := .ok :: s.responses }

/-- R90. -/
def Obligations.TnopChangesNothing : Prop :=
  ReadFrom 0x00 (fun _ _ _ => .tnop) ∧ decode (.table 0) = .tnop ∧
  ∀ s : State, s.fcause = 0 → exec .tnop s = .next { s with responses := .okData 0 :: s.responses }

/-- R89. -/
def Obligations.TickAsksTheVmToHaltOnce : Prop :=
  (∀ q : U1, decode (.tick q) = .tick q) ∧
  ∀ (q : U1) (s : State),
    (s.fcause = 0 → q = 1 → s.haltSent = 0 →
      exec (.tick q) s = .next { s with haltSent := 1, responses := .haltReq 1 :: s.responses }) ∧
    (s.fcause ≠ 0 ∨ q = 0 ∨ s.haltSent = 1 →
      exec (.tick q) s = .next { s with responses := .haltReq 0 :: s.responses })

/-- R98 "is given at most once between resets (latched by `HALT_SENT`)", over whole runs: the halt requests a run without
reset gives are as many as `HALT_SENT` rose by. -/
def Obligations.HaltRequestAtMostOnceBetweenResets : Prop :=
  ∀ (k : Nat) (s t : State), Input.reset ∉ s.inbox.take k → run k s = .next t →
    t.responses.count (.haltReq 1) + s.haltSent.toNat = s.responses.count (.haltReq 1) + t.haltSent.toNat ∧
    t.responses.count (.haltReq 1) ≤ s.responses.count (.haltReq 1) + 1

/-- R91 with 10_state.md R25: answered even when faulted; 0 after reset. -/
def Obligations.StatgetAnswersTheStatusWord : Prop :=
  ReadFrom 0x70 (fun _ _ _ => .statget) ∧
  exec .statget State.reset = .next { State.reset with responses := [.okData 0] } ∧
  ∀ s : State, ∃ v : U32, exec .statget s = .next { s with responses := .okData v :: s.responses } ∧
    v.toNat = s.bgp.toNat * 2 ^ 16 + s.rowpal.toNat * 2 ^ 12 + s.mode.toNat * 2 ^ 9 + s.haltSent.toNat * 2 ^ 8
      + s.fcause.toNat

/-- 30_encoding.md R49 (b): a reserved table word raises cause 0x13. -/
def Obligations.ReservedWordRaisesProtocolViolation : Prop :=
  ∀ (op : U8) (s : State), s.fcause = 0 → Raises (.reserved op) s 0x13

/-! ## Whole-machine rules -/

/-- 10_state.md R14 to R24 "written only by": which operation changes which piece of state, when it answers a next state. -/
def Obligations.EachStoreHasOnlyItsWriters : Prop :=
  ∀ (i : Instr) (s t : State), exec i s = .next t →
    (t.pal ≠ s.pal → ∃ p j v, i = .palset p j v) ∧
    (t.tile ≠ s.tile → ∃ n r row, i = .tileset n r row) ∧
    (t.sprPal ≠ s.sprPal ∨ t.sprW ≠ s.sprW ∨ t.sprH ≠ s.sprH → ∃ n p w h, i = .sprseth n p w h) ∧
    (t.sprTile ≠ s.sprTile → ∃ n k id, i = .sprsett n k id) ∧
    (t.bg ≠ s.bg → ∃ px py id, i = .bgset px py id) ∧
    (t.fb ≠ s.fb → i = .wrow ∨ (∃ y, i = .bgrow y) ∨ ∃ n x y, i = .sprdraw n x y) ∧
    (t.scx ≠ s.scx ∨ t.scy ≠ s.scy → ∃ x y, i = .scroll x y) ∧
    (t.bgp ≠ s.bgp → ∃ p, i = .bgpal p) ∧
    (t.mode ≠ s.mode → ∃ m, i = .modeset m) ∧
    (t.rowpal ≠ s.rowpal → ∃ p, i = .rowpalset p) ∧
    (t.haltSent ≠ s.haltSent → ∃ q, i = .tick q) ∧
    (t.fcause ≠ s.fcause → t.fcause ≠ 0 ∧ t.responses = .err t.fcause :: s.responses)

/-- 20_memory.md R31, R32, 10_state.md R28: no operation writes VM memory, the parameters or the inputs; only `WROW` pops,
one byte; only `PRESENT` hands over a frame. -/
def Obligations.TheEnvironmentIsOnlyPoppedAndPresentedTo : Prop :=
  ∀ (i : Instr) (s t : State), exec i s = .next t →
    (∀ a, t.vmMem.read a = s.vmMem.read a) ∧ t.rowBase = s.rowBase ∧ t.pageBytes = s.pageBytes ∧
    t.displayOk = s.displayOk ∧ t.inbox = s.inbox ∧
    (t.vmStack = s.vmStack ∨ i = .wrow ∧ ∃ b, s.vmStack = b :: t.vmStack) ∧
    (t.presents = s.presents ∨ i = .present ∧ ∃ p, t.presents = p :: s.presents)

/-- 70_reset_and_hazards.md R106 (the spec's own inference): from reset, until a palette entry is written or direct mode is
chosen, the framebuffer stays black, whatever else is presented. -/
def Obligations.BlackUntilAPaletteEntryOrDirectMode : Prop :=
  ∀ (k : Nat) (s t : State), BlockAtReset s →
    (∀ w, Input.word w ∈ s.inbox.take k → (∀ p i v, decode w ≠ .palset p i v) ∧ decode w ≠ .modeset 1) →
    run k s = .next t → ∀ sx sy, t.fbAt sx sy = 0

/-- R106 (the spec's own inference), as what one step keeps from any state, in range or not: all-zero palettes and pixels in
indexed mode stay so unless the word presented is a `PALSET` or `MODESET 1`. -/
def Obligations.BlackIsKeptByEveryStepButTwo : Prop :=
  ∀ s t : State, AllBlack s →
    (∀ w rest, s.inbox = .word w :: rest → (∀ p i v, decode w ≠ .palset p i v) ∧ decode w ≠ .modeset 1) →
    step s = .next t → AllBlack t
end

