-- ==== Sys2Proof/Laws/Cells.lean ====
section
/-! SUPPORT. Sparse lists, stores and VM memory: a read after a write, and the canonical form every write keeps. -/

namespace Sys2Proof.Machine

section Cells

variable {α : Type}

theorem findCell_insertCell_same (k : Nat) (v : α) (cs : List (Nat × α)) :
    findCell k (insertCell k v cs) = some v := by
  induction cs with
  | nil => simp [insertCell, findCell]
  | cons c cs ih =>
    unfold insertCell
    split
    · simp [findCell]
    · split
      · simp [findCell]
      · next hk => simp [findCell, ih, Ne.symm hk]

theorem findCell_insertCell_other {k j : Nat} (h : j ≠ k) (v : α) (cs : List (Nat × α)) :
    findCell j (insertCell k v cs) = findCell j cs := by
  induction cs with
  | nil => simp [insertCell, findCell, Ne.symm h]
  | cons c cs ih =>
    unfold insertCell
    split
    · simp [findCell, Ne.symm h]
    · split
      · next hk => subst hk; simp [findCell, Ne.symm h]
      · simp [findCell, ih]

theorem findCell_eraseCell_same (k : Nat) (cs : List (Nat × α)) : findCell k (eraseCell k cs) = none := by
  induction cs with
  | nil => rfl
  | cons c cs ih =>
    by_cases hc : c.1 = k
    · simpa [eraseCell, hc] using ih
    · have : eraseCell k (c :: cs) = c :: eraseCell k cs := by simp [eraseCell, hc]
      simp [this, findCell, hc, ih]

theorem findCell_eraseCell_other {k j : Nat} (h : j ≠ k) (cs : List (Nat × α)) :
    findCell j (eraseCell k cs) = findCell j cs := by
  induction cs with
  | nil => rfl
  | cons c cs ih =>
    by_cases hc : c.1 = k
    · have : eraseCell k (c :: cs) = eraseCell k cs := by simp [eraseCell, hc]
      have hj : c.1 ≠ j := fun e => h (e.symm.trans hc)
      simp [this, findCell, ih, hj]
    · have : eraseCell k (c :: cs) = c :: eraseCell k cs := by simp [eraseCell, hc]
      simp [this, findCell, ih]

theorem mem_of_findCell {k : Nat} {v : α} {cs : List (Nat × α)} (h : findCell k cs = some v) : (k, v) ∈ cs := by
  induction cs with
  | nil => simp [findCell] at h
  | cons c cs ih =>
    unfold findCell at h
    split at h
    · next hk => cases h; cases c; simp_all
    · exact List.mem_cons_of_mem _ (ih h)

theorem mem_insertCell {k : Nat} {v : α} {c : Nat × α} {cs : List (Nat × α)} (h : c ∈ insertCell k v cs) :
    c = (k, v) ∨ c ∈ cs := by
  induction cs with
  | nil => simpa [insertCell] using h
  | cons d cs ih =>
    unfold insertCell at h
    split at h
    · simpa using h
    · split at h
      · rcases List.mem_cons.1 h with h | h
        · exact .inl h
        · exact .inr (List.mem_cons_of_mem _ h)
      · rcases List.mem_cons.1 h with h | h
        · exact .inr (h ▸ List.mem_cons_self)
        · exact (ih h).imp id (List.mem_cons_of_mem _)

theorem rising_cons {c : Nat × α} {cs : List (Nat × α)} :
    rising (c :: cs) = true ↔ (∀ d ∈ cs, c.1 < d.1) ∧ rising cs = true := by
  simp [rising]

theorem rising_insertCell (k : Nat) (v : α) {cs : List (Nat × α)} (h : rising cs = true) :
    rising (insertCell k v cs) = true := by
  induction cs with
  | nil => simp [insertCell, rising]
  | cons c cs ih =>
    obtain ⟨hc, hcs⟩ := rising_cons.1 h
    unfold insertCell
    split
    · next hk =>
      refine rising_cons.2 ⟨fun d hd => ?_, h⟩
      rcases List.mem_cons.1 hd with rfl | hd
      · exact hk
      · exact Nat.lt_trans hk (hc d hd)
    · split
      · next hk => exact rising_cons.2 ⟨fun d hd => hk ▸ hc d hd, hcs⟩
      · refine rising_cons.2 ⟨fun d hd => ?_, ih hcs⟩
        rcases mem_insertCell hd with rfl | hd
        · show c.1 < k
          omega
        · exact hc d hd

theorem rising_eraseCell (k : Nat) {cs : List (Nat × α)} (h : rising cs = true) : rising (eraseCell k cs) = true := by
  induction cs with
  | nil => rfl
  | cons c cs ih =>
    obtain ⟨hc, hcs⟩ := rising_cons.1 h
    by_cases hk : c.1 = k
    · simpa [eraseCell, hk] using ih hcs
    · have : eraseCell k (c :: cs) = c :: eraseCell k cs := by simp [eraseCell, hk]
      rw [this]
      exact rising_cons.2 ⟨fun d hd => hc d (List.mem_of_mem_filter hd), ih hcs⟩

/-- In a rising list an index is listed at most once. -/
theorem findCell_of_mem {c : Nat × α} {cs : List (Nat × α)} (h : rising cs = true) (hc : c ∈ cs) :
    findCell c.1 cs = some c.2 := by
  induction cs with
  | nil => cases hc
  | cons d cs ih =>
    obtain ⟨hd, hcs⟩ := rising_cons.1 h
    rcases List.mem_cons.1 hc with rfl | hc
    · simp [findCell]
    · have : d.1 ≠ c.1 := Nat.ne_of_lt (hd c hc)
      simp [findCell, this, ih hcs hc]

/-- Two rising lists that list the same are the same list. -/
theorem rising_ext {cs ds : List (Nat × α)} (hc : rising cs = true) (hd : rising ds = true)
    (h : ∀ k, findCell k cs = findCell k ds) : cs = ds := by
  induction cs generalizing ds with
  | nil =>
    cases ds with
    | nil => rfl
    | cons d ds => simpa [findCell] using h d.1
  | cons c cs ih =>
    cases ds with
    | nil => simpa [findCell] using h c.1
    | cons d ds =>
      obtain ⟨hc1, hc2⟩ := rising_cons.1 hc
      obtain ⟨hd1, hd2⟩ := rising_cons.1 hd
      have hcd : c ∈ d :: ds := by
        have := h c.1
        rw [findCell_of_mem hc List.mem_cons_self] at this
        exact mem_of_findCell this.symm
      have hdc : d ∈ c :: cs := by
        have := h d.1
        rw [findCell_of_mem hd List.mem_cons_self] at this
        exact mem_of_findCell this
      have e : c = d := by
        rcases List.mem_cons.1 hcd with e | h1
        · exact e
        · rcases List.mem_cons.1 hdc with e | h2
          · exact e.symm
          · exact absurd (hd1 c h1) (Nat.not_lt.2 (Nat.le_of_lt (hc1 d h2)))
      subst e
      congr 1
      refine ih hc2 hd2 fun k => ?_
      by_cases hk : c.1 = k
      · have no : ∀ es : List (Nat × α), (∀ e ∈ es, c.1 < e.1) → findCell k es = none := by
          intro es hes
          cases hf : findCell k es with
          | none => rfl
          | some v => exact absurd (hes _ (mem_of_findCell hf)) (by simp [hk])
        rw [no _ hc1, no _ hd1]
      · simpa [findCell, hk] using h k

end Cells

section Stores

variable {w : Nat}

@[simp] theorem Store.read_nil (k : Nat) : Store.read ([] : Store w) k = 0#w := rfl

/-- All that a write does to reads. -/
theorem Store.read_write (st : Store w) (k j : Nat) (v : BitVec w) :
    (st.write k v).read j = if j = k then v else st.read j := by
  unfold Store.write Store.read
  by_cases hj : j = k
  · subst hj
    by_cases hv : v = 0#w
    · simp [hv, findCell_eraseCell_same]
    · simp [hv, findCell_insertCell_same]
  · by_cases hv : v = 0#w
    · simp [hv, hj, findCell_eraseCell_other hj]
    · simp [hv, hj, findCell_insertCell_other hj]

@[simp] theorem Store.read_write_same (st : Store w) (k : Nat) (v : BitVec w) : (st.write k v).read k = v := by
  simp [Store.read_write]

theorem Store.read_write_other (st : Store w) {k j : Nat} (h : j ≠ k) (v : BitVec w) :
    (st.write k v).read j = st.read j := by
  simp [Store.read_write, h]

/-- All that writing a run does to reads. -/
theorem Store.read_writeRun (st : Store w) (base j : Nat) (vs : List (BitVec w)) :
    (st.writeRun base vs).read j =
      if h : base ≤ j ∧ j - base < vs.length then vs[j - base]'h.2 else st.read j := by
  induction vs generalizing base with
  | nil => simp [Store.writeRun]
  | cons v vs ih =>
    simp only [Store.writeRun, Store.read_write, ih, List.length_cons]
    by_cases hj : j = base
    · subst hj; simp
    · rw [if_neg hj]
      by_cases hb : base + 1 ≤ j ∧ j - (base + 1) < vs.length
      · have h2 : base ≤ j ∧ j - base < vs.length + 1 := by omega
        have e : j - base = (j - (base + 1)) + 1 := by omega
        rw [dif_pos hb, dif_pos h2]
        simp only [e, List.getElem_cons_succ]
      · have h2 : ¬(base ≤ j ∧ j - base < vs.length + 1) := by omega
        rw [dif_neg hb, dif_neg h2]

@[simp] theorem Store.writeAll_nil (st : Store w) : st.writeAll [] = st := rfl

@[simp] theorem Store.writeAll_cons (st : Store w) (p : Nat × BitVec w) (ps : List (Nat × BitVec w)) :
    st.writeAll (p :: ps) = (st.write p.1 p.2).writeAll ps := rfl

theorem Store.read_writeAll_of_not_mem (st : Store w) (ps : List (Nat × BitVec w)) {j : Nat}
    (h : ∀ p ∈ ps, p.1 ≠ j) : (st.writeAll ps).read j = st.read j := by
  induction ps generalizing st with
  | nil => rfl
  | cons p ps ih =>
    rw [Store.writeAll_cons, ih _ fun q hq => h q (List.mem_cons_of_mem _ hq)]
    exact Store.read_write_other st (Ne.symm (h p List.mem_cons_self)) p.2

/-- When every write of `ps` to an index writes the same value, that is the value read there. -/
theorem Store.read_writeAll_of_mem (st : Store w) (ps : List (Nat × BitVec w)) {p : Nat × BitVec w} (hp : p ∈ ps)
    (h : ∀ q ∈ ps, q.1 = p.1 → q.2 = p.2) : (st.writeAll ps).read p.1 = p.2 := by
  induction ps generalizing st with
  | nil => cases hp
  | cons q ps ih =>
    rw [Store.writeAll_cons]
    by_cases hm : p ∈ ps
    · exact ih _ hm fun r hr => h r (List.mem_cons_of_mem _ hr)
    · have hq : p = q := (List.mem_cons.1 hp).resolve_right hm
      subst hq
      by_cases ho : ∃ r ∈ ps, r.1 = p.1
      · obtain ⟨r, hr, hk⟩ := ho
        have hv := h r (List.mem_cons_of_mem _ hr) hk
        exact absurd ((Prod.ext hk hv : r = p) ▸ hr) hm
      · rw [Store.read_writeAll_of_not_mem _ _ fun r hr hk => ho ⟨r, hr, hk⟩, Store.read_write_same]

@[simp] theorem Store.read_widen (st : Store w) (k : Nat) : st.widen.read k = (st.read k).setWidth 32 := by
  unfold Store.read Store.widen
  induction st with
  | nil => simp [findCell]
  | cons c cs ih =>
    by_cases hc : c.1 = k
    · simp [findCell, hc]
    · simpa [findCell, hc] using ih

theorem Store.wf_iff {size : Nat} {st : Store w} :
    st.wf size = true ↔ rising st = true ∧ ∀ c ∈ st, c.1 < size ∧ c.2 ≠ 0#w := by
  simp [Store.wf]

@[simp] theorem Store.wf_nil (size : Nat) : Store.wf size ([] : Store w) = true := rfl

theorem Store.wf_write {size : Nat} {st : Store w} (h : st.wf size = true) {k : Nat} (hk : k < size) (v : BitVec w) :
    (st.write k v).wf size = true := by
  obtain ⟨hr, hc⟩ := Store.wf_iff.1 h
  unfold Store.write
  split
  · exact Store.wf_iff.2 ⟨rising_eraseCell k hr, fun c hm => hc c (List.mem_of_mem_filter hm)⟩
  · next hv =>
    refine Store.wf_iff.2 ⟨rising_insertCell k v hr, fun c hm => ?_⟩
    rcases mem_insertCell hm with rfl | hm
    · exact ⟨hk, hv⟩
    · exact hc c hm

theorem Store.wf_writeRun {size : Nat} {st : Store w} (h : st.wf size = true) {base : Nat} (vs : List (BitVec w))
    (hb : base + vs.length ≤ size) : (st.writeRun base vs).wf size = true := by
  induction vs generalizing base with
  | nil => exact h
  | cons v vs ih =>
    simp only [List.length_cons] at hb
    exact Store.wf_write (ih (by omega)) (by omega) v

theorem Store.wf_writeAll {size : Nat} {st : Store w} (h : st.wf size = true) (ps : List (Nat × BitVec w))
    (hp : ∀ p ∈ ps, p.1 < size) : (st.writeAll ps).wf size = true := by
  induction ps generalizing st with
  | nil => exact h
  | cons p ps ih =>
    exact ih (Store.wf_write h (hp p List.mem_cons_self) p.2) fun q hq => hp q (List.mem_cons_of_mem _ hq)

/-- In canonical form, equal reads are equal stores. -/
theorem Store.ext_of_wf {size : Nat} {st st' : Store w} (h : st.wf size = true) (h' : st'.wf size = true)
    (hr : ∀ k, st.read k = st'.read k) : st = st' := by
  obtain ⟨h1, h2⟩ := Store.wf_iff.1 h
  obtain ⟨h1', h2'⟩ := Store.wf_iff.1 h'
  refine rising_ext h1 h1' fun k => ?_
  have := hr k
  unfold Store.read at this
  cases hf : findCell k st with
  | none =>
    cases hf' : findCell k st' with
    | none => rfl
    | some v =>
      rw [hf, hf'] at this
      exact absurd this.symm (h2' _ (mem_of_findCell hf')).2
  | some v =>
    cases hf' : findCell k st' with
    | none =>
      rw [hf, hf'] at this
      exact absurd this (h2 _ (mem_of_findCell hf)).2
    | some v' =>
      rw [hf, hf'] at this
      exact congrArg some this

/-- An index beyond the capacity of a canonical store reads 0. -/
theorem Store.read_of_size_le {size : Nat} {st : Store w} (h : st.wf size = true) {k : Nat} (hk : size ≤ k) :
    st.read k = 0#w := by
  unfold Store.read
  cases hf : findCell k st with
  | none => rfl
  | some v => exact absurd ((Store.wf_iff.1 h).2 _ (mem_of_findCell hf)).1 (Nat.not_lt.2 hk)

end Stores

theorem Memory.read_write (m : Memory) (a j : Nat) (b : U8) :
    (Memory.write m a b).read j = if j = a then some b else m.read j := by
  unfold Memory.read Memory.write
  by_cases h : j = a
  · simp [h, findCell_insertCell_same]
  · simp [h, findCell_insertCell_other h]

theorem Memory.wf_write {m : Memory} (h : Memory.wf m = true) (a : Nat) (b : U8) :
    Memory.wf (Memory.write m a b) = true :=
  rising_insertCell a b h

theorem Memory.wf_ofCells (cs : List Host.Cell) : Memory.wf (Memory.ofCells cs) = true := by
  induction cs with
  | nil => rfl
  | cons c cs ih => exact Memory.wf_write ih c.1 c.2

/-- What a run of bytes is. -/
theorem Memory.readRun_eq_some {m : Memory} {a n : Nat} {bs : List U8} :
    m.readRun a n = some bs ↔ bs.length = n ∧ ∀ j, (h : j < bs.length) → m.read (a + j) = some bs[j] := by
  induction n generalizing a bs with
  | zero =>
    constructor
    · intro h; cases h; simp
    · rintro ⟨h, -⟩
      rw [List.length_eq_zero_iff.1 h]; rfl
  | succ n ih =>
    unfold Memory.readRun
    constructor
    · intro h
      split at h
      · next b bs' hb hbs =>
        cases h
        obtain ⟨hl, hr⟩ := ih.1 hbs
        refine ⟨by simp [hl], fun j hj => ?_⟩
        cases j with
        | zero => simpa using hb
        | succ j =>
          have := hr j (by simpa using hj)
          simpa [Nat.add_assoc, Nat.add_comm 1 j] using this
      · cases h
    · rintro ⟨hl, hr⟩
      cases bs with
      | nil => cases hl
      | cons b bs =>
        have h0 : m.read a = some b := hr 0 (by simp)
        have h1 : m.readRun (a + 1) n = some bs := by
          refine ih.2 ⟨by simpa using hl, fun j hj => ?_⟩
          have := hr (j + 1) (by simpa using hj)
          simpa [Nat.add_assoc, Nat.add_comm 1 j] using this
        rw [h0, h1]

end Sys2Proof.Machine
end

