-- ==== Sys2Proof/Laws/Decode.lean ====
section
/-! SUPPORT. The fields of a packed table word, and how the decoders meet them. -/

namespace Sys2Proof

/-- Concatenation as a number: the high part by its weight, and the low part. -/
theorem toNat_append_eq {m n : Nat} (x : BitVec m) (y : BitVec n) : (x ++ y).toNat = x.toNat * 2 ^ n + y.toNat := by
  rw [BitVec.toNat_append, ← Nat.shiftLeft_add_eq_or_of_lt y.isLt, Nat.shiftLeft_eq]

/-- A packed table word as a number (30_encoding.md R43). -/
theorem packed_toNat (op : U8) (a : U16) (b : U8) (d : U32) :
    (op ++ a ++ b ++ d : U64).toNat = op.toNat * 2 ^ 56 + a.toNat * 2 ^ 40 + b.toNat * 2 ^ 32 + d.toNat := by
  have h1 := toNat_append_eq (op ++ a ++ b) d
  have h2 := toNat_append_eq (op ++ a) b
  have h3 := toNat_append_eq op a
  refine h1.trans ?_
  omega

@[simp] theorem tableOp_append (op : U8) (a : U16) (b : U8) (d : U32) : tableOp (op ++ a ++ b ++ d) = op := by
  apply BitVec.eq_of_toNat_eq
  unfold tableOp
  rw [BitVec.extractLsb'_toNat, packed_toNat, Nat.shiftRight_eq_div_pow]
  omega

@[simp] theorem tableA_append (op : U8) (a : U16) (b : U8) (d : U32) : tableA (op ++ a ++ b ++ d) = a := by
  apply BitVec.eq_of_toNat_eq
  unfold tableA
  rw [BitVec.extractLsb'_toNat, packed_toNat, Nat.shiftRight_eq_div_pow]
  omega

@[simp] theorem tableB_append (op : U8) (a : U16) (b : U8) (d : U32) : tableB (op ++ a ++ b ++ d) = b := by
  apply BitVec.eq_of_toNat_eq
  unfold tableB
  rw [BitVec.extractLsb'_toNat, packed_toNat, Nat.shiftRight_eq_div_pow]
  omega

@[simp] theorem tableD_append (op : U8) (a : U16) (b : U8) (d : U32) : tableD (op ++ a ++ b ++ d) = d := by
  apply BitVec.eq_of_toNat_eq
  unfold tableD
  rw [BitVec.extractLsb'_toNat, packed_toNat, Nat.shiftRight_zero]
  omega

/-- A packed table word is decoded by its four fields. -/
theorem decode_tableWord (op : U8) (a : U16) (b : U8) (d : U32) :
    decode (tableWord op a b d) = decodeFields op a b d := by
  simp [tableWord, decode, decodeTable]

theorem dByte0_toNat (d : U32) : (dByte0 d).toNat = d.toNat % 256 := by
  simp [dByte0, BitVec.extractLsb'_toNat]

theorem dByte1_toNat (d : U32) : (dByte1 d).toNat = d.toNat / 256 % 256 := by
  simp [dByte1, BitVec.extractLsb'_toNat, Nat.shiftRight_eq_div_pow]

theorem dByte2_toNat (d : U32) : (dByte2 d).toNat = d.toNat / 65536 % 256 := by
  simp [dByte2, BitVec.extractLsb'_toNat, Nat.shiftRight_eq_div_pow]

theorem dLo_toNat (d : U32) : (dLo d).toNat = d.toNat % 65536 := by
  simp [dLo, BitVec.extractLsb'_toNat]

theorem dHi_toNat (d : U32) : (dHi d).toNat = d.toNat / 65536 % 65536 := by
  simp [dHi, BitVec.extractLsb'_toNat, Nat.shiftRight_eq_div_pow]

theorem dBit0_toNat (d : U32) : (dBit0 d).toNat = d.toNat % 2 := by
  simp [dBit0, BitVec.extractLsb'_toNat]

end Sys2Proof
end

