-- ==== Sys2Proof/Laws/State.lean ====
section
/-! SUPPORT. What each update of State does to each field, by rfl, so that no proof unfolds an update. -/

namespace Sys2Proof.Machine

/-! `State.answer` -/

@[simp] theorem State.answer_pal (s : State) (r : Response) : (s.answer r).pal = s.pal := rfl
@[simp] theorem State.answer_tile (s : State) (r : Response) : (s.answer r).tile = s.tile := rfl
@[simp] theorem State.answer_sprPal (s : State) (r : Response) : (s.answer r).sprPal = s.sprPal := rfl
@[simp] theorem State.answer_sprW (s : State) (r : Response) : (s.answer r).sprW = s.sprW := rfl
@[simp] theorem State.answer_sprH (s : State) (r : Response) : (s.answer r).sprH = s.sprH := rfl
@[simp] theorem State.answer_sprTile (s : State) (r : Response) : (s.answer r).sprTile = s.sprTile := rfl
@[simp] theorem State.answer_bg (s : State) (r : Response) : (s.answer r).bg = s.bg := rfl
@[simp] theorem State.answer_fb (s : State) (r : Response) : (s.answer r).fb = s.fb := rfl
@[simp] theorem State.answer_scx (s : State) (r : Response) : (s.answer r).scx = s.scx := rfl
@[simp] theorem State.answer_scy (s : State) (r : Response) : (s.answer r).scy = s.scy := rfl
@[simp] theorem State.answer_bgp (s : State) (r : Response) : (s.answer r).bgp = s.bgp := rfl
@[simp] theorem State.answer_mode (s : State) (r : Response) : (s.answer r).mode = s.mode := rfl
@[simp] theorem State.answer_rowpal (s : State) (r : Response) : (s.answer r).rowpal = s.rowpal := rfl
@[simp] theorem State.answer_fcause (s : State) (r : Response) : (s.answer r).fcause = s.fcause := rfl
@[simp] theorem State.answer_haltSent (s : State) (r : Response) : (s.answer r).haltSent = s.haltSent := rfl
@[simp] theorem State.answer_rowBase (s : State) (r : Response) : (s.answer r).rowBase = s.rowBase := rfl
@[simp] theorem State.answer_pageBytes (s : State) (r : Response) : (s.answer r).pageBytes = s.pageBytes := rfl
@[simp] theorem State.answer_vmStack (s : State) (r : Response) : (s.answer r).vmStack = s.vmStack := rfl
@[simp] theorem State.answer_vmMem (s : State) (r : Response) : (s.answer r).vmMem = s.vmMem := rfl
@[simp] theorem State.answer_displayOk (s : State) (r : Response) : (s.answer r).displayOk = s.displayOk := rfl
@[simp] theorem State.answer_inbox (s : State) (r : Response) : (s.answer r).inbox = s.inbox := rfl
@[simp] theorem State.answer_responses (s : State) (r : Response) : (s.answer r).responses = r :: s.responses := rfl
@[simp] theorem State.answer_presents (s : State) (r : Response) : (s.answer r).presents = s.presents := rfl

/-! `State.recordFault` -/

@[simp] theorem State.recordFault_pal (s : State) (c : Cause) : (s.recordFault c).pal = s.pal := rfl
@[simp] theorem State.recordFault_tile (s : State) (c : Cause) : (s.recordFault c).tile = s.tile := rfl
@[simp] theorem State.recordFault_sprPal (s : State) (c : Cause) : (s.recordFault c).sprPal = s.sprPal := rfl
@[simp] theorem State.recordFault_sprW (s : State) (c : Cause) : (s.recordFault c).sprW = s.sprW := rfl
@[simp] theorem State.recordFault_sprH (s : State) (c : Cause) : (s.recordFault c).sprH = s.sprH := rfl
@[simp] theorem State.recordFault_sprTile (s : State) (c : Cause) : (s.recordFault c).sprTile = s.sprTile := rfl
@[simp] theorem State.recordFault_bg (s : State) (c : Cause) : (s.recordFault c).bg = s.bg := rfl
@[simp] theorem State.recordFault_fb (s : State) (c : Cause) : (s.recordFault c).fb = s.fb := rfl
@[simp] theorem State.recordFault_scx (s : State) (c : Cause) : (s.recordFault c).scx = s.scx := rfl
@[simp] theorem State.recordFault_scy (s : State) (c : Cause) : (s.recordFault c).scy = s.scy := rfl
@[simp] theorem State.recordFault_bgp (s : State) (c : Cause) : (s.recordFault c).bgp = s.bgp := rfl
@[simp] theorem State.recordFault_mode (s : State) (c : Cause) : (s.recordFault c).mode = s.mode := rfl
@[simp] theorem State.recordFault_rowpal (s : State) (c : Cause) : (s.recordFault c).rowpal = s.rowpal := rfl
@[simp] theorem State.recordFault_fcause (s : State) (c : Cause) : (s.recordFault c).fcause = c.code := rfl
@[simp] theorem State.recordFault_haltSent (s : State) (c : Cause) : (s.recordFault c).haltSent = s.haltSent := rfl
@[simp] theorem State.recordFault_rowBase (s : State) (c : Cause) : (s.recordFault c).rowBase = s.rowBase := rfl
@[simp] theorem State.recordFault_pageBytes (s : State) (c : Cause) : (s.recordFault c).pageBytes = s.pageBytes := rfl
@[simp] theorem State.recordFault_vmStack (s : State) (c : Cause) : (s.recordFault c).vmStack = s.vmStack := rfl
@[simp] theorem State.recordFault_vmMem (s : State) (c : Cause) : (s.recordFault c).vmMem = s.vmMem := rfl
@[simp] theorem State.recordFault_displayOk (s : State) (c : Cause) : (s.recordFault c).displayOk = s.displayOk := rfl
@[simp] theorem State.recordFault_inbox (s : State) (c : Cause) : (s.recordFault c).inbox = s.inbox := rfl
@[simp] theorem State.recordFault_responses (s : State) (c : Cause) : (s.recordFault c).responses = s.responses := rfl
@[simp] theorem State.recordFault_presents (s : State) (c : Cause) : (s.recordFault c).presents = s.presents := rfl

/-! `State.setPal` -/

@[simp] theorem State.setPal_pal (s : State) (p i : Nat) (v : U8) : (s.setPal p i v).pal = s.pal.write (palKey p i) v := rfl
@[simp] theorem State.setPal_tile (s : State) (p i : Nat) (v : U8) : (s.setPal p i v).tile = s.tile := rfl
@[simp] theorem State.setPal_sprPal (s : State) (p i : Nat) (v : U8) : (s.setPal p i v).sprPal = s.sprPal := rfl
@[simp] theorem State.setPal_sprW (s : State) (p i : Nat) (v : U8) : (s.setPal p i v).sprW = s.sprW := rfl
@[simp] theorem State.setPal_sprH (s : State) (p i : Nat) (v : U8) : (s.setPal p i v).sprH = s.sprH := rfl
@[simp] theorem State.setPal_sprTile (s : State) (p i : Nat) (v : U8) : (s.setPal p i v).sprTile = s.sprTile := rfl
@[simp] theorem State.setPal_bg (s : State) (p i : Nat) (v : U8) : (s.setPal p i v).bg = s.bg := rfl
@[simp] theorem State.setPal_fb (s : State) (p i : Nat) (v : U8) : (s.setPal p i v).fb = s.fb := rfl
@[simp] theorem State.setPal_scx (s : State) (p i : Nat) (v : U8) : (s.setPal p i v).scx = s.scx := rfl
@[simp] theorem State.setPal_scy (s : State) (p i : Nat) (v : U8) : (s.setPal p i v).scy = s.scy := rfl
@[simp] theorem State.setPal_bgp (s : State) (p i : Nat) (v : U8) : (s.setPal p i v).bgp = s.bgp := rfl
@[simp] theorem State.setPal_mode (s : State) (p i : Nat) (v : U8) : (s.setPal p i v).mode = s.mode := rfl
@[simp] theorem State.setPal_rowpal (s : State) (p i : Nat) (v : U8) : (s.setPal p i v).rowpal = s.rowpal := rfl
@[simp] theorem State.setPal_fcause (s : State) (p i : Nat) (v : U8) : (s.setPal p i v).fcause = s.fcause := rfl
@[simp] theorem State.setPal_haltSent (s : State) (p i : Nat) (v : U8) : (s.setPal p i v).haltSent = s.haltSent := rfl
@[simp] theorem State.setPal_rowBase (s : State) (p i : Nat) (v : U8) : (s.setPal p i v).rowBase = s.rowBase := rfl
@[simp] theorem State.setPal_pageBytes (s : State) (p i : Nat) (v : U8) : (s.setPal p i v).pageBytes = s.pageBytes := rfl
@[simp] theorem State.setPal_vmStack (s : State) (p i : Nat) (v : U8) : (s.setPal p i v).vmStack = s.vmStack := rfl
@[simp] theorem State.setPal_vmMem (s : State) (p i : Nat) (v : U8) : (s.setPal p i v).vmMem = s.vmMem := rfl
@[simp] theorem State.setPal_displayOk (s : State) (p i : Nat) (v : U8) : (s.setPal p i v).displayOk = s.displayOk := rfl
@[simp] theorem State.setPal_inbox (s : State) (p i : Nat) (v : U8) : (s.setPal p i v).inbox = s.inbox := rfl
@[simp] theorem State.setPal_responses (s : State) (p i : Nat) (v : U8) : (s.setPal p i v).responses = s.responses := rfl
@[simp] theorem State.setPal_presents (s : State) (p i : Nat) (v : U8) : (s.setPal p i v).presents = s.presents := rfl

/-! `State.setTileRow` -/

@[simp] theorem State.setTileRow_pal (s : State) (t r : Nat) (row : U32) : (s.setTileRow t r row).pal = s.pal := rfl
@[simp] theorem State.setTileRow_tile (s : State) (t r : Nat) (row : U32) : (s.setTileRow t r row).tile = s.tile.write (tileKey t r) row := rfl
@[simp] theorem State.setTileRow_sprPal (s : State) (t r : Nat) (row : U32) : (s.setTileRow t r row).sprPal = s.sprPal := rfl
@[simp] theorem State.setTileRow_sprW (s : State) (t r : Nat) (row : U32) : (s.setTileRow t r row).sprW = s.sprW := rfl
@[simp] theorem State.setTileRow_sprH (s : State) (t r : Nat) (row : U32) : (s.setTileRow t r row).sprH = s.sprH := rfl
@[simp] theorem State.setTileRow_sprTile (s : State) (t r : Nat) (row : U32) : (s.setTileRow t r row).sprTile = s.sprTile := rfl
@[simp] theorem State.setTileRow_bg (s : State) (t r : Nat) (row : U32) : (s.setTileRow t r row).bg = s.bg := rfl
@[simp] theorem State.setTileRow_fb (s : State) (t r : Nat) (row : U32) : (s.setTileRow t r row).fb = s.fb := rfl
@[simp] theorem State.setTileRow_scx (s : State) (t r : Nat) (row : U32) : (s.setTileRow t r row).scx = s.scx := rfl
@[simp] theorem State.setTileRow_scy (s : State) (t r : Nat) (row : U32) : (s.setTileRow t r row).scy = s.scy := rfl
@[simp] theorem State.setTileRow_bgp (s : State) (t r : Nat) (row : U32) : (s.setTileRow t r row).bgp = s.bgp := rfl
@[simp] theorem State.setTileRow_mode (s : State) (t r : Nat) (row : U32) : (s.setTileRow t r row).mode = s.mode := rfl
@[simp] theorem State.setTileRow_rowpal (s : State) (t r : Nat) (row : U32) : (s.setTileRow t r row).rowpal = s.rowpal := rfl
@[simp] theorem State.setTileRow_fcause (s : State) (t r : Nat) (row : U32) : (s.setTileRow t r row).fcause = s.fcause := rfl
@[simp] theorem State.setTileRow_haltSent (s : State) (t r : Nat) (row : U32) : (s.setTileRow t r row).haltSent = s.haltSent := rfl
@[simp] theorem State.setTileRow_rowBase (s : State) (t r : Nat) (row : U32) : (s.setTileRow t r row).rowBase = s.rowBase := rfl
@[simp] theorem State.setTileRow_pageBytes (s : State) (t r : Nat) (row : U32) : (s.setTileRow t r row).pageBytes = s.pageBytes := rfl
@[simp] theorem State.setTileRow_vmStack (s : State) (t r : Nat) (row : U32) : (s.setTileRow t r row).vmStack = s.vmStack := rfl
@[simp] theorem State.setTileRow_vmMem (s : State) (t r : Nat) (row : U32) : (s.setTileRow t r row).vmMem = s.vmMem := rfl
@[simp] theorem State.setTileRow_displayOk (s : State) (t r : Nat) (row : U32) : (s.setTileRow t r row).displayOk = s.displayOk := rfl
@[simp] theorem State.setTileRow_inbox (s : State) (t r : Nat) (row : U32) : (s.setTileRow t r row).inbox = s.inbox := rfl
@[simp] theorem State.setTileRow_responses (s : State) (t r : Nat) (row : U32) : (s.setTileRow t r row).responses = s.responses := rfl
@[simp] theorem State.setTileRow_presents (s : State) (t r : Nat) (row : U32) : (s.setTileRow t r row).presents = s.presents := rfl

/-! `State.setSprHeader` -/

@[simp] theorem State.setSprHeader_pal (s : State) (n : Nat) (pal : U4) (w h : U8) : (s.setSprHeader n pal w h).pal = s.pal := rfl
@[simp] theorem State.setSprHeader_tile (s : State) (n : Nat) (pal : U4) (w h : U8) : (s.setSprHeader n pal w h).tile = s.tile := rfl
@[simp] theorem State.setSprHeader_sprPal (s : State) (n : Nat) (pal : U4) (w h : U8) : (s.setSprHeader n pal w h).sprPal = s.sprPal.write n pal := rfl
@[simp] theorem State.setSprHeader_sprW (s : State) (n : Nat) (pal : U4) (w h : U8) : (s.setSprHeader n pal w h).sprW = s.sprW.write n w := rfl
@[simp] theorem State.setSprHeader_sprH (s : State) (n : Nat) (pal : U4) (w h : U8) : (s.setSprHeader n pal w h).sprH = s.sprH.write n h := rfl
@[simp] theorem State.setSprHeader_sprTile (s : State) (n : Nat) (pal : U4) (w h : U8) : (s.setSprHeader n pal w h).sprTile = s.sprTile := rfl
@[simp] theorem State.setSprHeader_bg (s : State) (n : Nat) (pal : U4) (w h : U8) : (s.setSprHeader n pal w h).bg = s.bg := rfl
@[simp] theorem State.setSprHeader_fb (s : State) (n : Nat) (pal : U4) (w h : U8) : (s.setSprHeader n pal w h).fb = s.fb := rfl
@[simp] theorem State.setSprHeader_scx (s : State) (n : Nat) (pal : U4) (w h : U8) : (s.setSprHeader n pal w h).scx = s.scx := rfl
@[simp] theorem State.setSprHeader_scy (s : State) (n : Nat) (pal : U4) (w h : U8) : (s.setSprHeader n pal w h).scy = s.scy := rfl
@[simp] theorem State.setSprHeader_bgp (s : State) (n : Nat) (pal : U4) (w h : U8) : (s.setSprHeader n pal w h).bgp = s.bgp := rfl
@[simp] theorem State.setSprHeader_mode (s : State) (n : Nat) (pal : U4) (w h : U8) : (s.setSprHeader n pal w h).mode = s.mode := rfl
@[simp] theorem State.setSprHeader_rowpal (s : State) (n : Nat) (pal : U4) (w h : U8) : (s.setSprHeader n pal w h).rowpal = s.rowpal := rfl
@[simp] theorem State.setSprHeader_fcause (s : State) (n : Nat) (pal : U4) (w h : U8) : (s.setSprHeader n pal w h).fcause = s.fcause := rfl
@[simp] theorem State.setSprHeader_haltSent (s : State) (n : Nat) (pal : U4) (w h : U8) : (s.setSprHeader n pal w h).haltSent = s.haltSent := rfl
@[simp] theorem State.setSprHeader_rowBase (s : State) (n : Nat) (pal : U4) (w h : U8) : (s.setSprHeader n pal w h).rowBase = s.rowBase := rfl
@[simp] theorem State.setSprHeader_pageBytes (s : State) (n : Nat) (pal : U4) (w h : U8) : (s.setSprHeader n pal w h).pageBytes = s.pageBytes := rfl
@[simp] theorem State.setSprHeader_vmStack (s : State) (n : Nat) (pal : U4) (w h : U8) : (s.setSprHeader n pal w h).vmStack = s.vmStack := rfl
@[simp] theorem State.setSprHeader_vmMem (s : State) (n : Nat) (pal : U4) (w h : U8) : (s.setSprHeader n pal w h).vmMem = s.vmMem := rfl
@[simp] theorem State.setSprHeader_displayOk (s : State) (n : Nat) (pal : U4) (w h : U8) : (s.setSprHeader n pal w h).displayOk = s.displayOk := rfl
@[simp] theorem State.setSprHeader_inbox (s : State) (n : Nat) (pal : U4) (w h : U8) : (s.setSprHeader n pal w h).inbox = s.inbox := rfl
@[simp] theorem State.setSprHeader_responses (s : State) (n : Nat) (pal : U4) (w h : U8) : (s.setSprHeader n pal w h).responses = s.responses := rfl
@[simp] theorem State.setSprHeader_presents (s : State) (n : Nat) (pal : U4) (w h : U8) : (s.setSprHeader n pal w h).presents = s.presents := rfl

/-! `State.setSprTile` -/

@[simp] theorem State.setSprTile_pal (s : State) (n k : Nat) (t : U13) : (s.setSprTile n k t).pal = s.pal := rfl
@[simp] theorem State.setSprTile_tile (s : State) (n k : Nat) (t : U13) : (s.setSprTile n k t).tile = s.tile := rfl
@[simp] theorem State.setSprTile_sprPal (s : State) (n k : Nat) (t : U13) : (s.setSprTile n k t).sprPal = s.sprPal := rfl
@[simp] theorem State.setSprTile_sprW (s : State) (n k : Nat) (t : U13) : (s.setSprTile n k t).sprW = s.sprW := rfl
@[simp] theorem State.setSprTile_sprH (s : State) (n k : Nat) (t : U13) : (s.setSprTile n k t).sprH = s.sprH := rfl
@[simp] theorem State.setSprTile_sprTile (s : State) (n k : Nat) (t : U13) : (s.setSprTile n k t).sprTile = s.sprTile.write (sprTileKey n k) t := rfl
@[simp] theorem State.setSprTile_bg (s : State) (n k : Nat) (t : U13) : (s.setSprTile n k t).bg = s.bg := rfl
@[simp] theorem State.setSprTile_fb (s : State) (n k : Nat) (t : U13) : (s.setSprTile n k t).fb = s.fb := rfl
@[simp] theorem State.setSprTile_scx (s : State) (n k : Nat) (t : U13) : (s.setSprTile n k t).scx = s.scx := rfl
@[simp] theorem State.setSprTile_scy (s : State) (n k : Nat) (t : U13) : (s.setSprTile n k t).scy = s.scy := rfl
@[simp] theorem State.setSprTile_bgp (s : State) (n k : Nat) (t : U13) : (s.setSprTile n k t).bgp = s.bgp := rfl
@[simp] theorem State.setSprTile_mode (s : State) (n k : Nat) (t : U13) : (s.setSprTile n k t).mode = s.mode := rfl
@[simp] theorem State.setSprTile_rowpal (s : State) (n k : Nat) (t : U13) : (s.setSprTile n k t).rowpal = s.rowpal := rfl
@[simp] theorem State.setSprTile_fcause (s : State) (n k : Nat) (t : U13) : (s.setSprTile n k t).fcause = s.fcause := rfl
@[simp] theorem State.setSprTile_haltSent (s : State) (n k : Nat) (t : U13) : (s.setSprTile n k t).haltSent = s.haltSent := rfl
@[simp] theorem State.setSprTile_rowBase (s : State) (n k : Nat) (t : U13) : (s.setSprTile n k t).rowBase = s.rowBase := rfl
@[simp] theorem State.setSprTile_pageBytes (s : State) (n k : Nat) (t : U13) : (s.setSprTile n k t).pageBytes = s.pageBytes := rfl
@[simp] theorem State.setSprTile_vmStack (s : State) (n k : Nat) (t : U13) : (s.setSprTile n k t).vmStack = s.vmStack := rfl
@[simp] theorem State.setSprTile_vmMem (s : State) (n k : Nat) (t : U13) : (s.setSprTile n k t).vmMem = s.vmMem := rfl
@[simp] theorem State.setSprTile_displayOk (s : State) (n k : Nat) (t : U13) : (s.setSprTile n k t).displayOk = s.displayOk := rfl
@[simp] theorem State.setSprTile_inbox (s : State) (n k : Nat) (t : U13) : (s.setSprTile n k t).inbox = s.inbox := rfl
@[simp] theorem State.setSprTile_responses (s : State) (n k : Nat) (t : U13) : (s.setSprTile n k t).responses = s.responses := rfl
@[simp] theorem State.setSprTile_presents (s : State) (n k : Nat) (t : U13) : (s.setSprTile n k t).presents = s.presents := rfl

/-! `State.setBg` -/

@[simp] theorem State.setBg_pal (s : State) (px py : Nat) (t : U13) : (s.setBg px py t).pal = s.pal := rfl
@[simp] theorem State.setBg_tile (s : State) (px py : Nat) (t : U13) : (s.setBg px py t).tile = s.tile := rfl
@[simp] theorem State.setBg_sprPal (s : State) (px py : Nat) (t : U13) : (s.setBg px py t).sprPal = s.sprPal := rfl
@[simp] theorem State.setBg_sprW (s : State) (px py : Nat) (t : U13) : (s.setBg px py t).sprW = s.sprW := rfl
@[simp] theorem State.setBg_sprH (s : State) (px py : Nat) (t : U13) : (s.setBg px py t).sprH = s.sprH := rfl
@[simp] theorem State.setBg_sprTile (s : State) (px py : Nat) (t : U13) : (s.setBg px py t).sprTile = s.sprTile := rfl
@[simp] theorem State.setBg_bg (s : State) (px py : Nat) (t : U13) : (s.setBg px py t).bg = s.bg.write (bgKey px py) t := rfl
@[simp] theorem State.setBg_fb (s : State) (px py : Nat) (t : U13) : (s.setBg px py t).fb = s.fb := rfl
@[simp] theorem State.setBg_scx (s : State) (px py : Nat) (t : U13) : (s.setBg px py t).scx = s.scx := rfl
@[simp] theorem State.setBg_scy (s : State) (px py : Nat) (t : U13) : (s.setBg px py t).scy = s.scy := rfl
@[simp] theorem State.setBg_bgp (s : State) (px py : Nat) (t : U13) : (s.setBg px py t).bgp = s.bgp := rfl
@[simp] theorem State.setBg_mode (s : State) (px py : Nat) (t : U13) : (s.setBg px py t).mode = s.mode := rfl
@[simp] theorem State.setBg_rowpal (s : State) (px py : Nat) (t : U13) : (s.setBg px py t).rowpal = s.rowpal := rfl
@[simp] theorem State.setBg_fcause (s : State) (px py : Nat) (t : U13) : (s.setBg px py t).fcause = s.fcause := rfl
@[simp] theorem State.setBg_haltSent (s : State) (px py : Nat) (t : U13) : (s.setBg px py t).haltSent = s.haltSent := rfl
@[simp] theorem State.setBg_rowBase (s : State) (px py : Nat) (t : U13) : (s.setBg px py t).rowBase = s.rowBase := rfl
@[simp] theorem State.setBg_pageBytes (s : State) (px py : Nat) (t : U13) : (s.setBg px py t).pageBytes = s.pageBytes := rfl
@[simp] theorem State.setBg_vmStack (s : State) (px py : Nat) (t : U13) : (s.setBg px py t).vmStack = s.vmStack := rfl
@[simp] theorem State.setBg_vmMem (s : State) (px py : Nat) (t : U13) : (s.setBg px py t).vmMem = s.vmMem := rfl
@[simp] theorem State.setBg_displayOk (s : State) (px py : Nat) (t : U13) : (s.setBg px py t).displayOk = s.displayOk := rfl
@[simp] theorem State.setBg_inbox (s : State) (px py : Nat) (t : U13) : (s.setBg px py t).inbox = s.inbox := rfl
@[simp] theorem State.setBg_responses (s : State) (px py : Nat) (t : U13) : (s.setBg px py t).responses = s.responses := rfl
@[simp] theorem State.setBg_presents (s : State) (px py : Nat) (t : U13) : (s.setBg px py t).presents = s.presents := rfl

/-! `State.setFbRow` -/

@[simp] theorem State.setFbRow_pal (s : State) (y : Nat) (line : List U24) : (s.setFbRow y line).pal = s.pal := rfl
@[simp] theorem State.setFbRow_tile (s : State) (y : Nat) (line : List U24) : (s.setFbRow y line).tile = s.tile := rfl
@[simp] theorem State.setFbRow_sprPal (s : State) (y : Nat) (line : List U24) : (s.setFbRow y line).sprPal = s.sprPal := rfl
@[simp] theorem State.setFbRow_sprW (s : State) (y : Nat) (line : List U24) : (s.setFbRow y line).sprW = s.sprW := rfl
@[simp] theorem State.setFbRow_sprH (s : State) (y : Nat) (line : List U24) : (s.setFbRow y line).sprH = s.sprH := rfl
@[simp] theorem State.setFbRow_sprTile (s : State) (y : Nat) (line : List U24) : (s.setFbRow y line).sprTile = s.sprTile := rfl
@[simp] theorem State.setFbRow_bg (s : State) (y : Nat) (line : List U24) : (s.setFbRow y line).bg = s.bg := rfl
@[simp] theorem State.setFbRow_fb (s : State) (y : Nat) (line : List U24) : (s.setFbRow y line).fb = s.fb.writeRun (fbKey 0 y) line := rfl
@[simp] theorem State.setFbRow_scx (s : State) (y : Nat) (line : List U24) : (s.setFbRow y line).scx = s.scx := rfl
@[simp] theorem State.setFbRow_scy (s : State) (y : Nat) (line : List U24) : (s.setFbRow y line).scy = s.scy := rfl
@[simp] theorem State.setFbRow_bgp (s : State) (y : Nat) (line : List U24) : (s.setFbRow y line).bgp = s.bgp := rfl
@[simp] theorem State.setFbRow_mode (s : State) (y : Nat) (line : List U24) : (s.setFbRow y line).mode = s.mode := rfl
@[simp] theorem State.setFbRow_rowpal (s : State) (y : Nat) (line : List U24) : (s.setFbRow y line).rowpal = s.rowpal := rfl
@[simp] theorem State.setFbRow_fcause (s : State) (y : Nat) (line : List U24) : (s.setFbRow y line).fcause = s.fcause := rfl
@[simp] theorem State.setFbRow_haltSent (s : State) (y : Nat) (line : List U24) : (s.setFbRow y line).haltSent = s.haltSent := rfl
@[simp] theorem State.setFbRow_rowBase (s : State) (y : Nat) (line : List U24) : (s.setFbRow y line).rowBase = s.rowBase := rfl
@[simp] theorem State.setFbRow_pageBytes (s : State) (y : Nat) (line : List U24) : (s.setFbRow y line).pageBytes = s.pageBytes := rfl
@[simp] theorem State.setFbRow_vmStack (s : State) (y : Nat) (line : List U24) : (s.setFbRow y line).vmStack = s.vmStack := rfl
@[simp] theorem State.setFbRow_vmMem (s : State) (y : Nat) (line : List U24) : (s.setFbRow y line).vmMem = s.vmMem := rfl
@[simp] theorem State.setFbRow_displayOk (s : State) (y : Nat) (line : List U24) : (s.setFbRow y line).displayOk = s.displayOk := rfl
@[simp] theorem State.setFbRow_inbox (s : State) (y : Nat) (line : List U24) : (s.setFbRow y line).inbox = s.inbox := rfl
@[simp] theorem State.setFbRow_responses (s : State) (y : Nat) (line : List U24) : (s.setFbRow y line).responses = s.responses := rfl
@[simp] theorem State.setFbRow_presents (s : State) (y : Nat) (line : List U24) : (s.setFbRow y line).presents = s.presents := rfl

/-! `State.setFbPixels` -/

@[simp] theorem State.setFbPixels_pal (s : State) (ps : List (Nat × U24)) : (s.setFbPixels ps).pal = s.pal := rfl
@[simp] theorem State.setFbPixels_tile (s : State) (ps : List (Nat × U24)) : (s.setFbPixels ps).tile = s.tile := rfl
@[simp] theorem State.setFbPixels_sprPal (s : State) (ps : List (Nat × U24)) : (s.setFbPixels ps).sprPal = s.sprPal := rfl
@[simp] theorem State.setFbPixels_sprW (s : State) (ps : List (Nat × U24)) : (s.setFbPixels ps).sprW = s.sprW := rfl
@[simp] theorem State.setFbPixels_sprH (s : State) (ps : List (Nat × U24)) : (s.setFbPixels ps).sprH = s.sprH := rfl
@[simp] theorem State.setFbPixels_sprTile (s : State) (ps : List (Nat × U24)) : (s.setFbPixels ps).sprTile = s.sprTile := rfl
@[simp] theorem State.setFbPixels_bg (s : State) (ps : List (Nat × U24)) : (s.setFbPixels ps).bg = s.bg := rfl
@[simp] theorem State.setFbPixels_fb (s : State) (ps : List (Nat × U24)) : (s.setFbPixels ps).fb = s.fb.writeAll ps := rfl
@[simp] theorem State.setFbPixels_scx (s : State) (ps : List (Nat × U24)) : (s.setFbPixels ps).scx = s.scx := rfl
@[simp] theorem State.setFbPixels_scy (s : State) (ps : List (Nat × U24)) : (s.setFbPixels ps).scy = s.scy := rfl
@[simp] theorem State.setFbPixels_bgp (s : State) (ps : List (Nat × U24)) : (s.setFbPixels ps).bgp = s.bgp := rfl
@[simp] theorem State.setFbPixels_mode (s : State) (ps : List (Nat × U24)) : (s.setFbPixels ps).mode = s.mode := rfl
@[simp] theorem State.setFbPixels_rowpal (s : State) (ps : List (Nat × U24)) : (s.setFbPixels ps).rowpal = s.rowpal := rfl
@[simp] theorem State.setFbPixels_fcause (s : State) (ps : List (Nat × U24)) : (s.setFbPixels ps).fcause = s.fcause := rfl
@[simp] theorem State.setFbPixels_haltSent (s : State) (ps : List (Nat × U24)) : (s.setFbPixels ps).haltSent = s.haltSent := rfl
@[simp] theorem State.setFbPixels_rowBase (s : State) (ps : List (Nat × U24)) : (s.setFbPixels ps).rowBase = s.rowBase := rfl
@[simp] theorem State.setFbPixels_pageBytes (s : State) (ps : List (Nat × U24)) : (s.setFbPixels ps).pageBytes = s.pageBytes := rfl
@[simp] theorem State.setFbPixels_vmStack (s : State) (ps : List (Nat × U24)) : (s.setFbPixels ps).vmStack = s.vmStack := rfl
@[simp] theorem State.setFbPixels_vmMem (s : State) (ps : List (Nat × U24)) : (s.setFbPixels ps).vmMem = s.vmMem := rfl
@[simp] theorem State.setFbPixels_displayOk (s : State) (ps : List (Nat × U24)) : (s.setFbPixels ps).displayOk = s.displayOk := rfl
@[simp] theorem State.setFbPixels_inbox (s : State) (ps : List (Nat × U24)) : (s.setFbPixels ps).inbox = s.inbox := rfl
@[simp] theorem State.setFbPixels_responses (s : State) (ps : List (Nat × U24)) : (s.setFbPixels ps).responses = s.responses := rfl
@[simp] theorem State.setFbPixels_presents (s : State) (ps : List (Nat × U24)) : (s.setFbPixels ps).presents = s.presents := rfl

/-! `State.resetBlock` -/

@[simp] theorem State.resetBlock_pal (s : State) : (s.resetBlock).pal = [] := rfl
@[simp] theorem State.resetBlock_tile (s : State) : (s.resetBlock).tile = [] := rfl
@[simp] theorem State.resetBlock_sprPal (s : State) : (s.resetBlock).sprPal = [] := rfl
@[simp] theorem State.resetBlock_sprW (s : State) : (s.resetBlock).sprW = [] := rfl
@[simp] theorem State.resetBlock_sprH (s : State) : (s.resetBlock).sprH = [] := rfl
@[simp] theorem State.resetBlock_sprTile (s : State) : (s.resetBlock).sprTile = [] := rfl
@[simp] theorem State.resetBlock_bg (s : State) : (s.resetBlock).bg = [] := rfl
@[simp] theorem State.resetBlock_fb (s : State) : (s.resetBlock).fb = [] := rfl
@[simp] theorem State.resetBlock_scx (s : State) : (s.resetBlock).scx = 0 := rfl
@[simp] theorem State.resetBlock_scy (s : State) : (s.resetBlock).scy = 0 := rfl
@[simp] theorem State.resetBlock_bgp (s : State) : (s.resetBlock).bgp = 0 := rfl
@[simp] theorem State.resetBlock_mode (s : State) : (s.resetBlock).mode = 0 := rfl
@[simp] theorem State.resetBlock_rowpal (s : State) : (s.resetBlock).rowpal = 0 := rfl
@[simp] theorem State.resetBlock_fcause (s : State) : (s.resetBlock).fcause = 0 := rfl
@[simp] theorem State.resetBlock_haltSent (s : State) : (s.resetBlock).haltSent = 0 := rfl
@[simp] theorem State.resetBlock_rowBase (s : State) : (s.resetBlock).rowBase = s.rowBase := rfl
@[simp] theorem State.resetBlock_pageBytes (s : State) : (s.resetBlock).pageBytes = s.pageBytes := rfl
@[simp] theorem State.resetBlock_vmStack (s : State) : (s.resetBlock).vmStack = s.vmStack := rfl
@[simp] theorem State.resetBlock_vmMem (s : State) : (s.resetBlock).vmMem = s.vmMem := rfl
@[simp] theorem State.resetBlock_displayOk (s : State) : (s.resetBlock).displayOk = s.displayOk := rfl
@[simp] theorem State.resetBlock_inbox (s : State) : (s.resetBlock).inbox = s.inbox := rfl
@[simp] theorem State.resetBlock_responses (s : State) : (s.resetBlock).responses = s.responses := rfl
@[simp] theorem State.resetBlock_presents (s : State) : (s.resetBlock).presents = s.presents := rfl

end Sys2Proof.Machine
end

