-- ==== Sys2Proof/Laws/Ops.lean ====
section
/-! SUPPORT. One lemma per shared operation that says all it can do. -/

namespace Sys2Proof.Machine

/-! ## Guard, checks, faults -/

theorem raiseFault_eq (c : Cause) (s : State) : raiseFault c s = .next ((s.recordFault c).answer (.err c.code)) := rfl

theorem unlessFaulted_running {s : State} (h : s.fcause = 0) (act : Out) : unlessFaulted s act = act := by
  simp [unlessFaulted, h]

theorem unlessFaulted_faulted {s : State} (h : s.fcause ≠ 0) (act : Out) :
    unlessFaulted s act = .next (s.answer (.err s.fcause)) :=
  if_neg h

/-- If a guarded operation answers a next state, either the block runs and the operation gave it, or the block is faulted
and only its refusal has been answered. -/
theorem unlessFaulted_next {s t : State} {act : Out} (h : unlessFaulted s act = .next t) :
    (s.fcause = 0 ∧ act = .next t) ∨ (s.fcause ≠ 0 ∧ t = s.answer (.err s.fcause)) := by
  by_cases hf : s.fcause = 0
  · exact .inl ⟨hf, by rwa [unlessFaulted_running hf] at h⟩
  · rw [unlessFaulted_faulted hf] at h
    exact .inr ⟨hf, (Host.Outcome.next.inj h).symm⟩

@[simp] theorem require_true (c : Cause) (s : State) (act : Out) : require true c s act = act := rfl
@[simp] theorem require_false (c : Cause) (s : State) (act : Out) : require false c s act = raiseFault c s := rfl

/-- If a checked operation answers a next state, either the check holds and the operation gave it, or it fails and its
fault has been taken. -/
theorem require_next {ok : Bool} {c : Cause} {s t : State} {act : Out} (h : require ok c s act = .next t) :
    (ok = true ∧ act = .next t) ∨ (ok = false ∧ t = (s.recordFault c).answer (.err c.code)) := by
  cases ok
  · exact .inr ⟨rfl, (Host.Outcome.next.inj h).symm⟩
  · exact .inl ⟨rfl, h⟩

theorem Cause.code_ne_zero (c : Cause) : c.code ≠ 0 := by cases c <;> decide

theorem Cause.code_injective {c d : Cause} (h : c.code = d.code) : c = d := by
  cases c <;> cases d <;> first | rfl | exact absurd h (by decide)

theorem Cause.mem_all (c : Cause) : c ∈ Cause.all := by cases c <;> decide

/-! ## collect -/

section Collect

variable {α β : Type} {f : α → Option β}

@[simp] theorem collect_nil : collect f [] = some [] := rfl

/-- `collect` gives a list exactly when `f` gives a value everywhere, and then the list of those values. -/
theorem collect_eq_some {as : List α} {bs : List β} : collect f as = some bs ↔ as.map f = bs.map some := by
  induction as generalizing bs with
  | nil => cases bs <;> simp [collect]
  | cons a as ih =>
    unfold collect
    cases ha : f a with
    | none => cases bs <;> simp [ha]
    | some b =>
      cases hc : collect f as with
      | none =>
        cases bs with
        | nil => simp
        | cons b' bs' =>
          simp only [List.map_cons, ha, List.cons.injEq, Option.some.injEq, reduceCtorEq, false_iff, not_and]
          intro _ h
          rw [ih.2 h] at hc
          cases hc
      | some bs1 =>
        have h1 := ih.1 hc
        cases bs with
        | nil => simp
        | cons b' bs' =>
          simp only [List.map_cons, ha, List.cons.injEq, Option.some.injEq, h1]
          constructor
          · rintro ⟨rfl, rfl⟩; exact ⟨rfl, rfl⟩
          · rintro ⟨rfl, h⟩
            exact ⟨rfl, List.map_injective_iff.2 (Option.some_injective _) h⟩

theorem collect_length {as : List α} {bs : List β} (h : collect f as = some bs) : bs.length = as.length := by
  simpa using (congrArg List.length (collect_eq_some.1 h)).symm

theorem collect_getElem {as : List α} {bs : List β} (h : collect f as = some bs) {j : Nat} (hj : j < bs.length) :
    f (as[j]'(collect_length h ▸ hj)) = some bs[j] := by
  have e := collect_eq_some.1 h
  have hj' : j < (as.map f).length := by simpa [collect_length h] using hj
  have : (as.map f)[j] = (bs.map some)[j]'(by simpa using hj) := by simp [e]
  simpa using this

theorem collect_isSome {as : List α} (h : ∀ a ∈ as, (f a).isSome = true) : ∃ bs, collect f as = some bs := by
  induction as with
  | nil => exact ⟨[], rfl⟩
  | cons a as ih =>
    obtain ⟨bs, hbs⟩ := ih fun a' ha => h a' (List.mem_cons_of_mem _ ha)
    obtain ⟨b, hb⟩ := Option.isSome_iff_exists.1 (h a List.mem_cons_self)
    exact ⟨b :: bs, by simp [collect, hb, hbs]⟩

theorem collect_eq_none {as : List α} (h : collect f as = none) : ∃ a ∈ as, f a = none := by
  by_contra hc
  simp only [not_exists, not_and] at hc
  obtain ⟨bs, hbs⟩ := collect_isSome (f := f) (as := as) fun a ha => Option.isSome_iff_ne_none.2 (hc a ha)
  rw [hbs] at h
  cases h

theorem mem_of_collect {as : List α} {bs : List β} (h : collect f as = some bs) {b : β} (hb : b ∈ bs) :
    ∃ a ∈ as, f a = some b := by
  have : some b ∈ as.map f := collect_eq_some.1 h ▸ List.mem_map_of_mem hb
  obtain ⟨a, ha, e⟩ := List.mem_map.1 this
  exact ⟨a, ha, e⟩

theorem mem_collect_of_mem {as : List α} {bs : List β} (h : collect f as = some bs) {a : α} (ha : a ∈ as) :
    ∃ b ∈ bs, f a = some b := by
  have : f a ∈ bs.map some := collect_eq_some.1 h ▸ List.mem_map_of_mem ha
  obtain ⟨b, hb, e⟩ := List.mem_map.1 this
  exact ⟨b, hb, e.symm⟩

end Collect

/-! ## Environment interfaces -/

theorem stackPop_eq_none {s : State} : stackPop s = none ↔ s.vmStack = [] := by
  unfold stackPop
  cases s.vmStack <;> simp

theorem stackPop_eq_some {s t : State} {b : U8} :
    stackPop s = some (b, t) ↔ ∃ rest, s.vmStack = b :: rest ∧ t = { s with vmStack := rest } := by
  unfold stackPop
  cases s.vmStack with
  | nil => simp
  | cons c rest =>
    simp only [Option.some.injEq, Prod.mk.injEq, List.cons.injEq]
    constructor
    · rintro ⟨rfl, rfl⟩; exact ⟨rest, ⟨rfl, rfl⟩, rfl⟩
    · rintro ⟨r, ⟨rfl, rfl⟩, rfl⟩; exact ⟨rfl, rfl⟩

theorem memRead_eq_some {s : State} {addr n : Nat} {bs : List U8} :
    memRead s addr n = some bs ↔
      addr + n ≤ s.pageBytes ∧ bs.length = n ∧ ∀ j, (h : j < bs.length) → s.vmMem.read (addr + j) = some bs[j] := by
  unfold memRead
  split
  · next h => rw [Memory.readRun_eq_some]; simp only [Config.pages, Nat.one_mul] at h; simp [h]
  · next h => simp only [Config.pages, Nat.one_mul] at h; simp [h]

theorem length_of_memRead {s : State} {addr n : Nat} {bs : List U8} (h : memRead s addr n = some bs) : bs.length = n :=
  (memRead_eq_some.1 h).2.1

@[simp] theorem frameWords_length (f : Store 32) : (frameWords f).length = 24576 := by simp [frameWords]

@[simp] theorem frameWords_getElem (f : Store 32) {n : Nat} (h : n < (frameWords f).length) :
    (frameWords f)[n] = f.read n := by
  simp [frameWords]

/-! ## Store accessors: a read after a write, by the indices of the spec -/

theorem palAt_setPal (s : State) {p i q j : Nat} (hi : i < 16) (hj : j < 16) (v : U8) :
    (s.setPal p i v).palAt q j = if q = p ∧ j = i then v else s.palAt q j := by
  have : palKey q j = palKey p i ↔ q = p ∧ j = i := by simp only [palKey, Config.palLen]; omega
  simp [State.palAt, State.setPal, Store.read_write, this]

theorem tileRow_setTileRow (s : State) {t r u q : Nat} (hr : r < 8) (hq : q < 8) (row : U32) :
    (s.setTileRow t r row).tileRow u q = if u = t ∧ q = r then row else s.tileRow u q := by
  have : tileKey u q = tileKey t r ↔ u = t ∧ q = r := by simp only [tileKey, Config.tileEdge]; omega
  simp [State.tileRow, State.setTileRow, Store.read_write, this]

theorem sprTileAt_setSprTile (s : State) {n k m j : Nat} (hk : k < 32) (hj : j < 32) (t : U13) :
    (s.setSprTile n k t).sprTileAt m j = if m = n ∧ j = k then t else s.sprTileAt m j := by
  have : sprTileKey m j = sprTileKey n k ↔ m = n ∧ j = k := by simp only [sprTileKey, Config.sprSlots]; omega
  simp [State.sprTileAt, State.setSprTile, Store.read_write, this]

theorem bgAt_setBg (s : State) {px py qx qy : Nat} (hp : px < 48) (hq : qx < 48) (t : U13) :
    (s.setBg px py t).bgAt qx qy = if qx = px ∧ qy = py then t else s.bgAt qx qy := by
  have : bgKey qx qy = bgKey px py ↔ qx = px ∧ qy = py := by simp only [bgKey, Config.planeTW_eq]; omega
  simp [State.bgAt, State.setBg, Store.read_write, this]

/-- A whole row written: its own pixels are the line's, every other pixel is as before. -/
theorem fbAt_setFbRow (s : State) {y sx sy : Nat} {pxs : List U24} (hl : pxs.length = 192) (hx : sx < 192) :
    (s.setFbRow y pxs).fbAt sx sy = if sy = y then pxs[sx]'(by omega) else s.fbAt sx sy := by
  unfold State.fbAt
  rw [State.setFbRow_fb, Store.read_writeRun]
  by_cases hy : sy = y
  · subst hy
    have h : fbKey 0 sy ≤ fbKey sx sy ∧ fbKey sx sy - fbKey 0 sy < pxs.length := by
      simp only [fbKey, Config.viewW]; omega
    have e : fbKey sx sy - fbKey 0 sy = sx := by simp only [fbKey, Config.viewW]; omega
    rw [dif_pos h, if_pos rfl]
    simp only [e]
  · have h : ¬(fbKey 0 y ≤ fbKey sx sy ∧ fbKey sx sy - fbKey 0 y < pxs.length) := by
      simp only [fbKey, Config.viewW]; omega
    rw [dif_neg h, if_neg hy]

theorem palKey_lt {p i : Nat} (hp : p < 16) (hi : i < 16) : palKey p i < 256 := by
  simp only [palKey, Config.palLen]; omega

theorem tileKey_lt {t r : Nat} (ht : t < 6144) (hr : r < 8) : tileKey t r < 49152 := by
  simp only [tileKey, Config.tileEdge]; omega

theorem sprTileKey_lt {n k : Nat} (hn : n < 256) (hk : k < 32) : sprTileKey n k < 8192 := by
  simp only [sprTileKey, Config.sprSlots]; omega

theorem bgKey_lt {px py : Nat} (hx : px < 48) (hy : py < 32) : bgKey px py < 1536 := by
  simp only [bgKey, Config.planeTW_eq]; omega

theorem fbKey_lt {sx sy : Nat} (hx : sx < 192) (hy : sy < 128) : fbKey sx sy < 24576 := by
  simp only [fbKey, Config.viewW]; omega

/-! ## Operands -/

/-- `sint16` is the two's-complement reading. -/
theorem sint16_eq_toInt (v : U16) : sint16 v = v.toInt := by
  unfold sint16
  rw [BitVec.toInt_eq_toNat_cond]
  split <;> split <;> omega

theorem clamp_of_le {v lo hi : Int} (h : lo ≤ hi) : lo ≤ clamp v lo hi ∧ clamp v lo hi ≤ hi := by
  unfold clamp; omega

theorem spriteDimsOk_iff {w h : U8} :
    spriteDimsOk w h = true ↔ w.toNat ≤ 32 ∧ h.toNat ≤ 32 ∧ w.toNat * h.toNat ≤ 32 := by
  unfold spriteDimsOk
  rw [Bool.and_eq_true, Bool.and_eq_true, decide_eq_true_iff, decide_eq_true_iff, decide_eq_true_iff, and_assoc]
  rfl

/-! ## Colour and tiles -/

/-- All that `resolve_px` answers (40_palette.md R55). -/
theorem resolvePx_eq (s : State) (p : Nat) (b : U8) :
    s.resolvePx p b =
      if s.mode = 0 then (if b.toNat < 16 then some (s.palRgb p b.toNat) else none) else some (rgb332 b) := rfl

theorem tilePx_of_lt (s : State) {t r c : Nat} (ht : t < 6144) (hr : r < 8) (hc : c < 8) :
    s.tilePx t r c = some (nibble (s.tileRow t r) c) := by
  simp [State.tilePx, ht, hr, hc]

theorem tileAt_of_lt (s : State) {px py : Nat} (hx : px < 48) (hy : py < 32) : s.tileAt px py = some (s.bgAt px py) := by
  simp [State.tileAt, hx, hy]

/-- Where the world pixel lies inside the plane and its map entry names a tile, `bg_px` is that tile's pixel. -/
theorem bgPx_of_lt (s : State) {sx sy : Nat} (hx : s.scx.toNat + sx < 384) (hy : s.scy.toNat + sy < 256)
    (ht : (s.bgAt ((s.scx.toNat + sx) / 8) ((s.scy.toNat + sy) / 8)).toNat < 6144) :
    s.bgPx sx sy = some (nibble
      (s.tileRow (s.bgAt ((s.scx.toNat + sx) / 8) ((s.scy.toNat + sy) / 8)).toNat ((s.scy.toNat + sy) % 8))
      ((s.scx.toNat + sx) % 8)) := by
  simp only [State.bgPx, Config.tileEdge]
  rw [tileAt_of_lt s (by omega) (by omega)]
  exact tilePx_of_lt s ht (by omega) (by omega)

end Sys2Proof.Machine
end

