-- ==== Sys2Proof/Laws/Exec.lean ====
section
/-! SUPPORT. What exec and step can do, said once: every next state of an operation is one of the cases of `Effect`, and
every next state of a step one of the cases of `step_cases`. Then the small facts about the drawing operations. -/

namespace Sys2Proof.Machine

/-- Every way an operation `i` run at `s` can end in a next state, with what it had to check. -/
inductive Effect (i : Instr) (s : State) : State → Prop
  | refused (h : s.fcause ≠ 0) (hs : i ≠ .statget) (ht : i.port ≠ .tick) :
    Effect i s { s with responses := .err s.fcause :: s.responses }
  | tickQuiet (q : U1) (hi : i = .tick q) :
    Effect i s { s with responses := .haltReq 0 :: s.responses }
  | tickHalt (q : U1) (hi : i = .tick q) (h : s.fcause = 0) (hh : s.haltSent = 0) :
    Effect i s { s with haltSent := 1, responses := .haltReq 1 :: s.responses }
  | status (hi : i = .statget) :
    Effect i s { s with responses := .okData s.status :: s.responses }
  | raised (h : s.fcause = 0) (c : Cause) (hc : c.code ∈ raisable i) (hp : i.port ≠ .tick) (hw : i ≠ .wrow)
      (hd : i ≠ .present) :
    Effect i s { s with fcause := c.code, responses := .err c.code :: s.responses }
  | presented (h : s.fcause = 0) (hi : i = .present) (hd : s.displayOk = true) :
    Effect i s { s with presents := ⟨s.frame, true⟩ :: s.presents, responses := .ok :: s.responses }
  | notTaken (h : s.fcause = 0) (hi : i = .present) (hd : s.displayOk = false) :
    Effect i s { s with presents := ⟨s.frame, false⟩ :: s.presents, fcause := 0x21,
                        responses := .err 0x21 :: s.responses }
  | stackEmpty (h : s.fcause = 0) (hi : i = .wrow) (hs : s.vmStack = []) :
    Effect i s { s with fcause := 0x11, responses := .err 0x11 :: s.responses }
  | rowFault (h : s.fcause = 0) (hi : i = .wrow) (b : U8) (rest : List U8) (hs : s.vmStack = b :: rest) (c : Cause)
      (hc : c.code ∈ raisable i) :
    Effect i s { s with vmStack := rest, fcause := c.code, responses := .err c.code :: s.responses }
  | rowWritten (h : s.fcause = 0) (hi : i = .wrow) (b : U8) (rest : List U8) (hs : s.vmStack = b :: rest)
      (bytes : List U8) (pxs : List U24) (hm : memRead s s.rowBase 192 = some bytes) (hb : b.toNat < 128)
      (hl : collect (s.resolvePx s.rowpal.toNat) bytes = some pxs) :
    Effect i s { s with vmStack := rest, fb := s.fb.writeRun (fbKey 0 b.toNat) pxs, responses := .ok :: s.responses }
  | nop (h : s.fcause = 0) (n : U16) (hi : i = .nop n) :
    Effect i s { s with responses := .ok :: s.responses }
  | tnop (h : s.fcause = 0) (hi : i = .tnop) :
    Effect i s { s with responses := .okData 0 :: s.responses }
  | answered (h : s.fcause = 0) (hi : reads i = true) (v : U32) :
    Effect i s { s with responses := .okData v :: s.responses }
  | palset (h : s.fcause = 0) (p : U16) (j v : U8) (hi : i = .palset p j v) (hp : p.toNat < 16) (hj : j.toNat < 16) :
    Effect i s ((s.setPal p.toNat j.toNat v).answer (.okData 0))
  | tileset (h : s.fcause = 0) (t : U16) (r : U8) (row : U32) (hi : i = .tileset t r row) (ht : t.toNat < 6144)
      (hr : r.toNat < 8) :
    Effect i s ((s.setTileRow t.toNat r.toNat row).answer (.okData 0))
  | sprseth (h : s.fcause = 0) (n : U16) (p w hh : U8) (hi : i = .sprseth n p w hh) (hn : n.toNat < 256)
      (hp : p.toNat < 16) (hd : spriteDimsOk w hh = true) :
    Effect i s ((s.setSprHeader n.toNat (p.setWidth 4) w hh).answer (.okData 0))
  | sprsett (h : s.fcause = 0) (n : U16) (k : U8) (t : U16) (hi : i = .sprsett n k t) (hn : n.toNat < 256)
      (hk : k.toNat < 32) (ht : t.toNat < 6144) :
    Effect i s ((s.setSprTile n.toNat k.toNat (t.setWidth 13)).answer (.okData 0))
  | bgset (h : s.fcause = 0) (px : U16) (py : U8) (t : U16) (hi : i = .bgset px py t) (hx : px.toNat < 48)
      (hy : py.toNat < 32) (ht : t.toNat < 6144) :
    Effect i s ((s.setBg px.toNat py.toNat (t.setWidth 13)).answer (.okData 0))
  | bgpal (h : s.fcause = 0) (p : U8) (q : U4) (hi : i = .bgpal p) :
    Effect i s { s with bgp := q, responses := .okData 0 :: s.responses }
  | scroll (h : s.fcause = 0) (x y : U16) (hi : i = .scroll x y) :
    Effect i s { s with scx := BitVec.ofInt 8 (clamp (sint16 x) 0 192), scy := BitVec.ofInt 8 (clamp (sint16 y) 0 128),
                        responses := .okData 0 :: s.responses }
  | bgrow (h : s.fcause = 0) (y : U16) (hi : i = .bgrow y) (hy : y.toNat < 128) (pxs : List U24)
      (hl : collect (fun sx => s.bgRgb sx y.toNat) (List.range 192) = some pxs) :
    Effect i s ((s.setFbRow y.toNat pxs).answer (.okData 0))
  | sprdraw (h : s.fcause = 0) (n x y : U16) (hi : i = .sprdraw n x y) (hn : n.toNat < 256)
      (ps : List (List (Nat × U24))) (hl : collect (s.drawPixel n.toNat (sint16 x) (sint16 y))
        (spritePixels (s.sprW.read n.toNat).toNat (s.sprH.read n.toNat).toNat) = some ps) :
    Effect i s ((s.setFbPixels ps.flatten).answer (.okData 0))
  | modeset (h : s.fcause = 0) (m : U1) (hi : i = .modeset m) :
    Effect i s { s with mode := m, responses := .okData 0 :: s.responses }
  | rowpalset (h : s.fcause = 0) (p : U8) (q : U4) (hi : i = .rowpalset p) :
    Effect i s { s with rowpal := q, responses := .okData 0 :: s.responses }

theorem effect_of_exec {i : Instr} {s t : State} (h : exec i s = .next t) : Effect i s t := by
  cases i
  case tick q =>
    simp only [exec, execTick] at h
    split at h
    · cases h; exact .tickQuiet q rfl
    · split at h
      · cases h; exact .tickHalt q rfl (by simp_all) (by simp_all)
      · cases h; exact .tickQuiet q rfl
  case statget => cases h; exact .status rfl
  all_goals
    replace h := unlessFaulted_next h
    rcases h with ⟨h0, h⟩ | ⟨h0, rfl⟩
    rotate_left
    · exact .refused h0 (by simp) (by simp [Instr.port])
  case present =>
    by_cases hd : s.displayOk = true
    · have e : displayPresent s s.frame = (true, { s with presents := ⟨s.frame, true⟩ :: s.presents }) := by
        simp [displayPresent, hd]
      simp only [e] at h; cases h; exact .presented h0 rfl hd
    · have hd : s.displayOk = false := by simpa using hd
      have e : displayPresent s s.frame = (false, { s with presents := ⟨s.frame, false⟩ :: s.presents }) := by
        simp [displayPresent, hd]
      simp only [e] at h; cases h; exact .notTaken h0 rfl hd
  case wrow =>
    cases hs : stackPop s with
    | none => simp only [hs] at h; cases h; exact .stackEmpty h0 rfl (stackPop_eq_none.1 hs)
    | some p =>
      obtain ⟨b, s'⟩ := p
      obtain ⟨rest, hs1, rfl⟩ := stackPop_eq_some.1 hs
      simp only [hs] at h
      cases hm : memRead { s with vmStack := rest } s.rowBase Config.viewW with
      | none => simp only [hm] at h; cases h; exact .rowFault h0 rfl b rest hs1 .pvMemShort (by decide)
      | some bytes =>
        simp only [hm, writeRow] at h
        replace h := require_next h
        rcases h with ⟨hb, h⟩ | ⟨-, rfl⟩
        · cases hl : collect (State.resolvePx { s with vmStack := rest } s.rowpal.toNat) bytes with
          | none => simp only [hl] at h; cases h; exact .rowFault h0 rfl b rest hs1 .oorColour (by decide)
          | some pxs =>
            simp only [hl] at h; cases h
            exact .rowWritten h0 rfl b rest hs1 bytes pxs hm (of_decide_eq_true hb) hl
        · exact .rowFault h0 rfl b rest hs1 .oorRow (by decide)
  case nop n => cases h; exact .nop h0 n rfl
  case tnop => cases h; exact .tnop h0 rfl
  case reserved op =>
    cases h
    exact .raised h0 .pvReservedOp (by simp [raisable, Cause.code]) (by simp [Instr.port]) (by simp) (by simp)
  case palset p j v =>
    replace h := require_next h
    rcases h with ⟨h1, h⟩ | ⟨-, rfl⟩
    · replace h := require_next h
      rcases h with ⟨h2, h⟩ | ⟨-, rfl⟩
      · cases h; exact .palset h0 p j v rfl (of_decide_eq_true h1) (of_decide_eq_true h2)
      · exact .raised h0 .oorColour (by simp [raisable, Cause.code]) (by simp [Instr.port]) (by simp) (by simp)
    · exact .raised h0 .oorPalette (by simp [raisable, Cause.code]) (by simp [Instr.port]) (by simp) (by simp)
  case resolve p j =>
    replace h := require_next h
    rcases h with ⟨h1, h⟩ | ⟨-, rfl⟩
    · cases hr : s.resolvePx p.toNat j <;> simp only [hr] at h <;> cases h
      · exact .raised h0 .oorColour (by simp [raisable, Cause.code]) (by simp [Instr.port]) (by simp) (by simp)
      · exact .answered h0 rfl _
    · exact .raised h0 .oorPalette (by simp [raisable, Cause.code]) (by simp [Instr.port]) (by simp) (by simp)
  case tileset p j v =>
    replace h := require_next h
    rcases h with ⟨h1, h⟩ | ⟨-, rfl⟩
    · replace h := require_next h
      rcases h with ⟨h2, h⟩ | ⟨-, rfl⟩
      · cases h; exact .tileset h0 p j v rfl (of_decide_eq_true h1) (of_decide_eq_true h2)
      · exact .raised h0 .oorTileRow (by simp [raisable, Cause.code]) (by simp [Instr.port]) (by simp) (by simp)
    · exact .raised h0 .oorTile (by simp [raisable, Cause.code]) (by simp [Instr.port]) (by simp) (by simp)
  case tileget p j =>
    replace h := require_next h
    rcases h with ⟨h1, h⟩ | ⟨-, rfl⟩
    · replace h := require_next h
      rcases h with ⟨h2, h⟩ | ⟨-, rfl⟩
      · cases h; exact .answered h0 rfl _
      · exact .raised h0 .oorTileRow (by simp [raisable, Cause.code]) (by simp [Instr.port]) (by simp) (by simp)
    · exact .raised h0 .oorTile (by simp [raisable, Cause.code]) (by simp [Instr.port]) (by simp) (by simp)
  case sprseth n p w hh =>
    replace h := require_next h
    rcases h with ⟨h1, h⟩ | ⟨-, rfl⟩
    · replace h := require_next h
      rcases h with ⟨h2, h⟩ | ⟨-, rfl⟩
      · replace h := require_next h
        rcases h with ⟨h3, h⟩ | ⟨-, rfl⟩
        · cases h; exact .sprseth h0 n p w hh rfl (of_decide_eq_true h1) (of_decide_eq_true h2) h3
        · exact .raised h0 .oorDim (by simp [raisable, Cause.code]) (by simp [Instr.port]) (by simp) (by simp)
      · exact .raised h0 .oorPalette (by simp [raisable, Cause.code]) (by simp [Instr.port]) (by simp) (by simp)
    · exact .raised h0 .oorSprite (by simp [raisable, Cause.code]) (by simp [Instr.port]) (by simp) (by simp)
  case sprsett n k t =>
    replace h := require_next h
    rcases h with ⟨h1, h⟩ | ⟨-, rfl⟩
    · replace h := require_next h
      rcases h with ⟨h2, h⟩ | ⟨-, rfl⟩
      · replace h := require_next h
        rcases h with ⟨h3, h⟩ | ⟨-, rfl⟩
        · cases h; exact .sprsett h0 n k t rfl (of_decide_eq_true h1) (of_decide_eq_true h2) (of_decide_eq_true h3)
        · exact .raised h0 .oorTile (by simp [raisable, Cause.code]) (by simp [Instr.port]) (by simp) (by simp)
      · exact .raised h0 .oorSlot (by simp [raisable, Cause.code]) (by simp [Instr.port]) (by simp) (by simp)
    · exact .raised h0 .oorSprite (by simp [raisable, Cause.code]) (by simp [Instr.port]) (by simp) (by simp)
  case sprgeth n =>
    replace h := require_next h
    rcases h with ⟨h1, h⟩ | ⟨-, rfl⟩
    · cases h; exact .answered h0 rfl _
    · exact .raised h0 .oorSprite (by simp [raisable, Cause.code]) (by simp [Instr.port]) (by simp) (by simp)
  case sprgett n k =>
    replace h := require_next h
    rcases h with ⟨h1, h⟩ | ⟨-, rfl⟩
    · replace h := require_next h
      rcases h with ⟨h2, h⟩ | ⟨-, rfl⟩
      · cases h; exact .answered h0 rfl _
      · exact .raised h0 .oorSlot (by simp [raisable, Cause.code]) (by simp [Instr.port]) (by simp) (by simp)
    · exact .raised h0 .oorSprite (by simp [raisable, Cause.code]) (by simp [Instr.port]) (by simp) (by simp)
  case bgset px py t =>
    replace h := require_next h
    rcases h with ⟨h1, h⟩ | ⟨-, rfl⟩
    · replace h := require_next h
      rcases h with ⟨h2, h⟩ | ⟨-, rfl⟩
      · rw [Bool.and_eq_true] at h1
        cases h; exact .bgset h0 px py t rfl (of_decide_eq_true h1.1) (of_decide_eq_true h1.2) (of_decide_eq_true h2)
      · exact .raised h0 .oorTile (by simp [raisable, Cause.code]) (by simp [Instr.port]) (by simp) (by simp)
    · exact .raised h0 .oorPlane (by simp [raisable, Cause.code]) (by simp [Instr.port]) (by simp) (by simp)
  case bgget px py =>
    replace h := require_next h
    rcases h with ⟨h1, h⟩ | ⟨-, rfl⟩
    · cases h; exact .answered h0 rfl _
    · exact .raised h0 .oorPlane (by simp [raisable, Cause.code]) (by simp [Instr.port]) (by simp) (by simp)
  case bgpal p =>
    replace h := require_next h
    rcases h with ⟨h1, h⟩ | ⟨-, rfl⟩
    · cases h; exact .bgpal h0 p _ rfl
    · exact .raised h0 .oorPalette (by simp [raisable, Cause.code]) (by simp [Instr.port]) (by simp) (by simp)
  case rowpalset p =>
    replace h := require_next h
    rcases h with ⟨h1, h⟩ | ⟨-, rfl⟩
    · cases h; exact .rowpalset h0 p _ rfl
    · exact .raised h0 .oorPalette (by simp [raisable, Cause.code]) (by simp [Instr.port]) (by simp) (by simp)
  case scroll x y => cases h; exact .scroll h0 x y rfl
  case scrollget => cases h; exact .answered h0 rfl _
  case modeset m => cases h; exact .modeset h0 m rfl
  case bgrow y =>
    replace h := require_next h
    rcases h with ⟨h1, h⟩ | ⟨-, rfl⟩
    · cases hl : collect (fun sx => s.bgRgb sx y.toNat) (List.range 192) with
      | none => simp only [Config.viewW, hl] at h; cases h
      | some pxs => simp only [Config.viewW, hl] at h; cases h; exact .bgrow h0 y rfl (of_decide_eq_true h1) pxs hl
    · exact .raised h0 .oorRow (by simp [raisable, Cause.code]) (by simp [Instr.port]) (by simp) (by simp)
  case sprdraw n x y =>
    replace h := require_next h
    rcases h with ⟨h1, h⟩ | ⟨-, rfl⟩
    · cases hl : collect (s.drawPixel n.toNat (sint16 x) (sint16 y))
         (spritePixels (s.sprW.read n.toNat).toNat (s.sprH.read n.toNat).toNat) with
      | none => simp only [hl] at h; cases h
      | some ps => simp only [hl] at h; cases h; exact .sprdraw h0 n x y rfl (of_decide_eq_true h1) ps hl
    · exact .raised h0 .oorSprite (by simp [raisable, Cause.code]) (by simp [Instr.port]) (by simp) (by simp)

/-- What one step does, by what the outside world does next. -/
theorem step_cases {s t : State} (h : step s = .next t) :
    (s.inbox = [] ∧ t = s) ∨
    (∃ w rest, s.inbox = .word w :: rest ∧ exec (decode w) { s with inbox := rest } = .next t) ∨
    (∃ stack cells ok rest, s.inbox = .environment stack cells ok :: rest ∧
      t = { s with inbox := rest, vmStack := stack, vmMem := Memory.ofCells cells, displayOk := ok }) ∨
    (∃ rest, s.inbox = .reset :: rest ∧ t = State.resetBlock { s with inbox := rest }) := by
  unfold step at h
  split at h
  · next e => cases h; exact .inl ⟨e, rfl⟩
  · next x rest e =>
    cases x with
    | word w => exact .inr (.inl ⟨w, rest, e, h⟩)
    | environment st cs ok => cases h; exact .inr (.inr (.inl ⟨st, cs, ok, rest, e, rfl⟩))
    | reset => cases h; exact .inr (.inr (.inr ⟨rest, e, rfl⟩))

/-! ## Runs -/

@[simp] theorem run_zero (s : State) : run 0 s = .next s := rfl

theorem run_succ_of_step {s u : State} (h : step s = .next u) (k : Nat) : run (k + 1) s = run k u := by
  simp [run, h]

theorem run_succ_next {s t : State} {k : Nat} (h : run (k + 1) s = .next t) :
    ∃ u, step s = .next u ∧ run k u = .next t := by
  unfold run at h
  split at h
  · exact ⟨_, ‹_›, h⟩
  · cases h
  · cases h

/-! ## Checks of one comparison -/

theorem require_pos {P : Prop} [Decidable P] (h : P) (c : Cause) (s : State) (act : Out) :
    require (decide P) c s act = act := by
  simp [h]

theorem require_neg {P : Prop} [Decidable P] (h : ¬P) (c : Cause) (s : State) (act : Out) :
    require (decide P) c s act = raiseFault c s := by
  simp [h]

/-! ## Drawing -/

theorem nibble_toNat (row : U32) (c : Nat) : (nibble row c).toNat = row.toNat / 16 ^ (7 - c) % 16 := by
  simp only [nibble, BitVec.extractLsb'_toNat, Nat.shiftRight_eq_div_pow]
  rw [Nat.pow_mul]

theorem mem_spritePixels {w h : Nat} {q : SpritePixel} :
    q ∈ spritePixels w h ↔ q.ty < h ∧ q.tx < w ∧ q.r < 8 ∧ q.c < 8 := by
  cases q with | mk ty tx r c =>
  simp only [spritePixels, List.mem_flatMap, List.mem_range, List.mem_map, Config.tileEdge, SpritePixel.mk.injEq]
  constructor
  · rintro ⟨a, ha, b, hb, e, he, f, hf, rfl, rfl, rfl, rfl⟩; exact ⟨ha, hb, he, hf⟩
  · rintro ⟨h1, h2, h3, h4⟩; exact ⟨ty, h1, tx, h2, r, h3, c, h4, rfl, rfl, rfl, rfl⟩

theorem inViewport_iff {sx sy : Int} : inViewport sx sy = true ↔ 0 ≤ sx ∧ sx < 192 ∧ 0 ≤ sy ∧ sy < 128 := by
  unfold inViewport
  rw [Bool.and_eq_true, Bool.and_eq_true, Bool.and_eq_true, decide_eq_true_iff, decide_eq_true_iff, decide_eq_true_iff,
    decide_eq_true_iff, and_assoc, and_assoc]
  rfl

/-- The slots a sprite of at most 32 tiles is drawn from exist (43_sprite_engine.md R76). -/
theorem slot_lt {w h tx ty : Nat} (hw : w * h ≤ 32) (hx : tx < w) (hy : ty < h) : ty * w + tx < 32 := by
  have : (ty + 1) * w ≤ h * w := Nat.mul_le_mul_right w hy
  rw [Nat.mul_comm h w, Nat.add_mul, Nat.one_mul] at this
  omega

/-- In range, the background shows a tile pixel everywhere in the viewport (42_background.md R69). -/
theorem bgPx_of_ranges {s : State} (hr : Ranges s) {sx sy : Nat} (hx : sx < 192) (hy : sy < 128) :
    s.bgPx sx sy = some (nibble
      (s.tileRow (s.bgAt ((s.scx.toNat + sx) / 8) ((s.scy.toNat + sy) / 8)).toNat ((s.scy.toNat + sy) % 8))
      ((s.scx.toNat + sx) % 8)) := by
  have := hr.scx_le
  have := hr.scy_le
  exact bgPx_of_lt s (by omega) (by omega) (hr.bg_lt _ _ (by omega) (by omega))

/-- In range, a pixel of a sprite writes its colour where it lies inside the viewport, and nothing elsewhere (R77). -/
theorem drawPixel_of_ranges {s : State} (hr : Ranges s) {n : Nat} (hn : n < 256) {x y : Int} {q : SpritePixel}
    (hq : q ∈ spritePixels (s.sprW.read n).toNat (s.sprH.read n).toNat) :
    s.drawPixel n x y q = some (if inViewport (pixelX x q) (pixelY y q) then
      [(fbKey (pixelX x q).toNat (pixelY y q).toNat, s.palRgb (s.sprPal.read n).toNat
        (nibble (s.tileRow (s.sprTileAt n (q.ty * (s.sprW.read n).toNat + q.tx)).toNat q.r) q.c).toNat)] else []) := by
  obtain ⟨h1, h2, h3, h4⟩ := mem_spritePixels.1 hq
  have hk := slot_lt (hr.sprDims n hn).2.2 h2 h1
  unfold State.drawPixel
  rw [show s.sprSlot n (q.ty * (s.sprW.read n).toNat + q.tx)
    = some (s.sprTileAt n (q.ty * (s.sprW.read n).toNat + q.tx)) from if_pos hk]
  simp only
  rw [tilePx_of_lt s (hr.sprTile_lt n _ hn hk) h3 h4]
  simp only
  split <;> rfl

/-- What a pixel writes lies inside the framebuffer, in any state. -/
theorem drawPixel_keys {s : State} {n : Nat} {x y : Int} {q : SpritePixel} {ps : List (Nat × U24)}
    (h : s.drawPixel n x y q = some ps) : ∀ p ∈ ps, p.1 < 24576 := by
  unfold State.drawPixel at h
  split at h
  · cases h
  · split at h
    · cases h
    · split at h
      · next hc =>
        cases h
        have := inViewport_iff.1 hc
        intro p hp
        simp only [List.mem_singleton] at hp
        subst hp
        exact fbKey_lt (by omega) (by omega)
      · cases h; simp

/-! ## Stores whose listed entries are bounded -/

/-- A bound on every listed entry, and on 0, bounds every read. -/
theorem Store.read_of_cells {w : Nat} {P : BitVec w → Prop} {st : Store w} (h0 : P 0#w) (h : ∀ c ∈ st, P c.2)
    (k : Nat) : P (st.read k) := by
  unfold Store.read
  cases hf : findCell k st with
  | none => exact h0
  | some v => exact h _ (mem_of_findCell hf)

end Sys2Proof.Machine
end

