-- ==== Sys2Proof/Laws/PerInstr.lean ====
section
/-! SUPPORT. The family `EncodePort`: an operation's word goes to the port its row names. -/

namespace Sys2Proof.Laws.EncodePort

def Statement (i : Instr) : Prop := (encode i).port = i.port

theorem present : Statement .present := rfl
theorem wrow : Statement .wrow := rfl
theorem nop (signal : U16) : Statement (.nop signal) := rfl
theorem tnop : Statement .tnop := rfl
theorem palset (p : U16) (i v : U8) : Statement (.palset p i v) := rfl
theorem resolve (p : U16) (i : U8) : Statement (.resolve p i) := rfl
theorem tileset (t : U16) (r : U8) (row : U32) : Statement (.tileset t r row) := rfl
theorem tileget (t : U16) (r : U8) : Statement (.tileget t r) := rfl
theorem sprseth (sid : U16) (pal w h : U8) : Statement (.sprseth sid pal w h) := rfl
theorem sprsett (sid : U16) (k : U8) (t : U16) : Statement (.sprsett sid k t) := rfl
theorem sprgeth (sid : U16) : Statement (.sprgeth sid) := rfl
theorem sprgett (sid : U16) (k : U8) : Statement (.sprgett sid k) := rfl
theorem bgset (px : U16) (py : U8) (t : U16) : Statement (.bgset px py t) := rfl
theorem bgget (px : U16) (py : U8) : Statement (.bgget px py) := rfl
theorem bgpal (p : U8) : Statement (.bgpal p) := rfl
theorem scroll (x y : U16) : Statement (.scroll x y) := rfl
theorem scrollget : Statement .scrollget := rfl
theorem bgrow (y : U16) : Statement (.bgrow y) := rfl
theorem sprdraw (sid x y : U16) : Statement (.sprdraw sid x y) := rfl
theorem modeset (m : U1) : Statement (.modeset m) := rfl
theorem rowpalset (p : U8) : Statement (.rowpalset p) := rfl
theorem statget : Statement .statget := rfl
theorem reserved (op : U8) : Statement (.reserved op) := rfl
theorem tick (q : U1) : Statement (.tick q) := rfl

end Sys2Proof.Laws.EncodePort
end

