-- ==== Sys2Proof/Tests/Slice0.lean ====
section
/-! SUPPORT. The model's own tests: ill-formed terms refused, words decoded, one step per test, and for every statement with
hypotheses a witness that meets them. Expected words, answers and entries are those of 95_test_vectors.md (V and P numbers)
or of the rule named. -/

namespace Sys2Proof.Tests

-- One test after another: many at once need more threads, each with its own stack, than the memory limit allows.
set_option Elab.async false

open Sys2Proof.Machine Sys2Proof.Claims

/-! ## WellFormed refuses -/

theorem test_wf_nop_present : (Instr.nop 0x0001).wellFormed = false := by decide
theorem test_wf_nop_wrow : (Instr.nop 0x0002).wellFormed = false := by decide
theorem test_wf_reserved_defined : (Instr.reserved 0x10).wellFormed = false := by decide
theorem test_wf_reserved_all_defined : definedOps.all (fun op => !(Instr.reserved op).wellFormed) = true := by decide

/-! ## Decoding: words of 95_test_vectors.md, fields by 30_encoding.md R43 and R45 -/

theorem test_decode_present : decode (.signal 0x0001) = .present := by decide
theorem test_decode_wrow : decode (.signal 0x0002) = .wrow := by decide
/-- V109: all 16 bits are compared. -/
theorem test_decode_nop : decode (.signal 0x8001) = .nop 0x8001 ∧ decode (.signal 0x0102) = .nop 0x0102
    ∧ decode (.signal 0x0000) = .nop 0x0000 := by decide
/-- V114: the other fields are ignored. -/
theorem test_decode_tnop : decode (.table 0x00123456789ABCDE) = .tnop := by decide
/-- V25. -/
theorem test_decode_palset : decode (.table 0x10000F0F000001FF) = .palset 15 15 0xFF := by decide
/-- V22. -/
theorem test_decode_resolve : decode (.table 0x110000AB00000000) = .resolve 0 0xAB := by decide
/-- V36. -/
theorem test_decode_tileset : decode (.table 0x2017FF07FFFFFFFF) = .tileset 6143 7 0xFFFFFFFF := by decide
/-- V34. -/
theorem test_decode_tileget : decode (.table 0x2100050000000000) = .tileget 5 0 := by decide
/-- V46, and V48 with `d[31:24]` set. -/
theorem test_decode_sprseth : decode (.table 0x3000FF00000F2001) = .sprseth 255 15 32 1
    ∧ decode (.table 0x30000000AA000505) = .sprseth 0 0 5 5 := by decide
/-- V44. -/
theorem test_decode_sprsett : decode (.table 0x3100070300000064) = .sprsett 7 3 100 := by decide
/-- V58. -/
theorem test_decode_sprgeth : decode (.table 0x3201000000000000) = .sprgeth 256 := by decide
/-- V45. -/
theorem test_decode_sprgett : decode (.table 0x3300070300000000) = .sprgett 7 3 := by decide
/-- V68. -/
theorem test_decode_bgset : decode (.table 0x40002F1F000017FF) = .bgset 47 31 6143 := by decide
/-- V74. -/
theorem test_decode_bgget : decode (.table 0x41002F2000000000) = .bgget 47 32 := by decide
/-- V77. -/
theorem test_decode_bgpal : decode (.table 0x4200000000000103) = .bgpal 3 := by decide
/-- V64: x is `d[31:16]`. -/
theorem test_decode_scroll : decode (.table 0x43000000FFFF0005) = .scroll 0xFFFF 5 := by decide
theorem test_decode_scrollget : decode (.table 0x4400000000000000) = .scrollget := by decide
/-- V80. -/
theorem test_decode_bgrow : decode (.table 0x45FFFF0000000000) = .bgrow 0xFFFF := by decide
/-- V81. -/
theorem test_decode_sprdraw : decode (.table 0x50000700FFFD0078) = .sprdraw 7 0xFFFD 120 := by decide
/-- V103 and V102: bit 0 only. -/
theorem test_decode_modeset : decode (.table 0x60000000FFFFFFFE) = .modeset 0
    ∧ decode (.table 0x6000000000000003) = .modeset 1 := by decide
/-- V106. -/
theorem test_decode_rowpalset : decode (.table 0x610000000000010F) = .rowpalset 15 := by decide
/-- V116. -/
theorem test_decode_statget : decode (.table 0x70FFFFFFFFFFFFFF) = .statget := by decide
/-- V118 to V121. -/
theorem test_decode_reserved : decode (.table 0x0100000000000000) = .reserved 0x01
    ∧ decode (.table 0x4600000000000000) = .reserved 0x46 ∧ decode (.table 0x7100000000000000) = .reserved 0x71
    ∧ decode (.table 0xFFFFFFFFFFFFFFFF) = .reserved 0xFF := by decide
theorem test_decode_tick : decode (.tick 1) = .tick 1 ∧ decode (.tick 0) = .tick 0 := by decide

/-- R51's written forms: V20, V42, V64, V81, V100. -/
theorem test_encode : encode (.palset 0 3 0xAB) = .table 0x10000003000000AB
    ∧ encode (.sprseth 7 2 2 2) = .table 0x3000070000020202 ∧ encode (.scroll 0xFFFF 5) = .table 0x43000000FFFF0005
    ∧ encode (.sprdraw 7 0xFFFD 120) = .table 0x50000700FFFD0078 ∧ encode (.modeset 1) = .table 0x6000000000000001 := by
  decide

/-- R52: the words of P5 step 3. -/
theorem test_setsprite : (setSpriteOps 7 2 2 2 [10, 11, 12, 13]).map encode
    = [.table 0x3000070000020202, .table 0x310007000000000A, .table 0x310007010000000B, .table 0x310007020000000C,
       .table 0x310007030000000D] := by decide

/-- The words of spec/opcode_table.json's widths. -/
theorem test_decodeTableWord : decodeTableWord 16 1 = some .present ∧ decodeTableWord 64 0x70FFFFFFFFFFFFFF = some .statget
    ∧ decodeTableWord 1 1 = some (.tick 1) ∧ decodeTableWord 8 1 = some (.tick 1) ∧ decodeTableWord 32 0 = none := by decide

/-! ## One step -/

/-- The state after the word `w` is presented to `s`; `s` itself, with no answer given, if the step stops. -/
def after (w : PortWord) (s : State) : State :=
  match step { s with inbox := [.word w] } with
  | .next t => t
  | .fault _ => s
  | .refused _ => s

/-- The last answer given. -/
def answer (s : State) : Option Response := s.responses.head?

/-- The set-up of program P5, for V81 to V87. -/
def p5 : State :=
  { State.reset with
    pal := [(32, 0x49), (33, 0xE0), (34, 0x1C), (35, 0x03)]
    tile := (List.range 8).map (fun r => (80 + r, 0x11111111)) ++ (List.range 8).map (fun r => (88 + r, 0x22222222))
      ++ (List.range 8).map (fun r => (96 + r, 0x33333333)) ++ (List.range 8).map (fun r => (104 + r, 0x01230123))
    sprPal := [(7, 2)]
    sprW := [(7, 2)]
    sprH := [(7, 2)]
    sprTile := [(224, 10), (225, 11), (226, 12), (227, 13)] }

/-- The set-up of program P4, steps 1 to 5. -/
def p4 : State :=
  { State.reset with
    pal := [(49, 0xE0), (50, 0x1C), (51, 0x03), (63, 0xFF)]
    tile := [(8, 0x11111111), (9, 0x12222221), (10, 0x12333321), (11, 0x1230F321), (12, 0x123F0321), (13, 0x12333321),
       (14, 0x12222221), (15, 0x11111111)] ++ (List.range 8).map fun r => (16 + r, 0x01234567)
    bg := [(0, 1), (1, 2), (792, 1), (1535, 2)]
    bgp := 3 }

/-- A VM that has pushed `stack` (top first) and put `bytes` at `base` onwards. -/
def vm (base : Nat) (stack : List U8) (bytes : List U8) (s : State) : State :=
  { s with rowBase := base, pageBytes := 256, vmStack := stack, vmMem := bytes.zipIdx.map fun x => (base + x.2, x.1) }

/-- V107. -/
theorem test_present : answer (after (.signal 1) State.reset) = some .ok
    ∧ (after (.signal 1) State.reset).presents = [⟨[], true⟩] := by decide
/-- V108. -/
theorem test_present_fail : answer (after (.signal 1) { State.reset with displayOk := false }) = some (.err 0x21)
    ∧ (after (.signal 1) { State.reset with displayOk := false }).status = 0x00000021 := by decide

/-- P2: direct colour, row 5. -/
def p2 : State :=
  after (.signal 2) (vm 0 [5] ([0xAB, 0xE0, 0x1C, 0x03, 0xFF] ++ List.replicate 186 0 ++ [0x92]) { State.reset with mode := 1 })
theorem test_wrow_direct : answer p2 = some .ok ∧ p2.vmStack = []
    ∧ (List.range 6).map (fun c => p2.fb.read (960 + c)) = [0xB448FF, 0xFC0000, 0x00FC00, 0x0000FF, 0xFCFCFF, 0x000000]
    ∧ p2.fb.read 1151 = 0x9090AA ∧ p2.fb.read 959 = 0 ∧ p2.fb.read 1152 = 0 := by decide +kernel
/-- V97: an index of 16 in the last byte; nothing is written, the popped byte stays popped. -/
theorem test_wrow_index : answer (after (.signal 2) (vm 0 [3, 9] (List.replicate 191 0 ++ [16]) State.reset)) = some (.err 0x33)
    ∧ (after (.signal 2) (vm 0 [3, 9] (List.replicate 191 0 ++ [16]) State.reset)).vmStack = [9]
    ∧ (after (.signal 2) (vm 0 [3, 9] (List.replicate 191 0 ++ [16]) State.reset)).fb = [] := by decide +kernel

/-- V109. -/
theorem test_nop : answer (after (.signal 0x0102) { State.reset with vmStack := [1] }) = some .ok
    ∧ (after (.signal 0x0102) { State.reset with vmStack := [1] }).vmStack = [1] := by decide
/-- V114. -/
theorem test_tnop : answer (after (.table 0x00123456789ABCDE) State.reset) = some (.okData 0) := by decide

/-- V25. -/
theorem test_palset : answer (after (.table 0x10000F0F000001FF) State.reset) = some (.okData 0)
    ∧ (after (.table 0x10000F0F000001FF) State.reset).palAt 15 15 = 0xFF := by decide
/-- V28: `a` before `b`. -/
theorem test_palset_order : answer (after (.table 0x1000101000000000) State.reset) = some (.err 0x32) := by decide
/-- V22 and V31. -/
theorem test_resolve_direct : answer (after (.table 0x110000AB00000000) { State.reset with mode := 1 }) = some (.okData 0x00B448FF)
    ∧ answer (after (.table 0x1100001000000000) { State.reset with mode := 1 }) = some (.okData 0x00009000) := by decide
/-- V30 and V32. -/
theorem test_resolve_faults : answer (after (.table 0x1100001000000000) State.reset) = some (.err 0x33)
    ∧ answer (after (.table 0x1100100000000000) { State.reset with mode := 1 }) = some (.err 0x32) := by decide

/-- V33; V17 for the pixels. -/
theorem test_tileset : answer (after (.table 0x2000050001234567) State.reset) = some (.okData 0)
    ∧ (List.range 8).map (fun c => (after (.table 0x2000050001234567) State.reset).tilePx 5 0 c)
      = [some 0, some 1, some 2, some 3, some 4, some 5, some 6, some 7] := by decide
/-- V37 and V38. -/
theorem test_tileset_faults : answer (after (.table 0x2018000000000000) State.reset) = some (.err 0x34)
    ∧ answer (after (.table 0x2000000800000000) State.reset) = some (.err 0x36) := by decide
/-- V34 and V35, on the tile of V33. -/
theorem test_tileget : answer (after (.table 0x2100050000000000) { State.reset with tile := [(40, 0x01234567)] })
      = some (.okData 0x01234567)
    ∧ answer (after (.table 0x2100050100000000) { State.reset with tile := [(40, 0x01234567)] }) = some (.okData 0) := by decide

/-- V46. -/
theorem test_sprseth : answer (after (.table 0x3000FF00000F2001) State.reset) = some (.okData 0)
    ∧ (after (.table 0x3000FF00000F2001) State.reset).sprPal.read 255 = 15
    ∧ (after (.table 0x3000FF00000F2001) State.reset).sprW.read 255 = 32
    ∧ (after (.table 0x3000FF00000F2001) State.reset).sprH.read 255 = 1 := by decide
/-- V51, V53, V123. -/
theorem test_sprseth_faults : answer (after (.table 0x3000000000002100) State.reset) = some (.err 0x39)
    ∧ answer (after (.table 0x30000000000000C8) State.reset) = some (.err 0x39)
    ∧ answer (after (.table 0x3000000000102100) State.reset) = some (.err 0x32) := by decide
/-- V54. -/
theorem test_sprsett : answer (after (.table 0x3100001F000017FF) State.reset) = some (.okData 0)
    ∧ (after (.table 0x3100001F000017FF) State.reset).sprTileAt 0 31 = 6143 := by decide
/-- V124 and V57. -/
theorem test_sprsett_faults : answer (after (.table 0x3100002000001800) State.reset) = some (.err 0x37)
    ∧ answer (after (.table 0x3100000000001800) State.reset) = some (.err 0x34) := by decide
/-- V43, on the set-up of P5; V58. -/
theorem test_sprgeth : answer (after (.table 0x3200070000000000) p5) = some (.okData 0x00020202)
    ∧ answer (after (.table 0x3201000000000000) State.reset) = some (.err 0x35) := by decide +kernel
/-- Slot 3 of P5's sprite 7 is 13; V125. -/
theorem test_sprgett : answer (after (.table 0x3300070300000000) p5) = some (.okData 13)
    ∧ answer (after (.table 0x3301002000000000) State.reset) = some (.err 0x35) := by decide +kernel

/-- V68. -/
theorem test_bgset : answer (after (.table 0x40002F1F000017FF) State.reset) = some (.okData 0)
    ∧ (after (.table 0x40002F1F000017FF) State.reset).bgAt 47 31 = 6143 := by decide
/-- V71 and V126. -/
theorem test_bgset_faults : answer (after (.table 0x4000002000000000) State.reset) = some (.err 0x38)
    ∧ answer (after (.table 0x4000300000001B58) State.reset) = some (.err 0x38) := by decide
/-- V69 on the entry of V68; V74. -/
theorem test_bgget : answer (after (.table 0x41002F1F00000000) { State.reset with bg := [(1535, 6143)] })
      = some (.okData 0x000017FF)
    ∧ answer (after (.table 0x41002F2000000000) State.reset) = some (.err 0x38) := by decide
/-- V77. -/
theorem test_bgpal : answer (after (.table 0x4200000000000103) State.reset) = some (.okData 0)
    ∧ (after (.table 0x4200000000000103) State.reset).status = 0x00030000 := by decide
/-- V76. -/
theorem test_bgpal_fault : answer (after (.table 0x4200000000000010) State.reset) = some (.err 0x32) := by decide
/-- V65 and V66. -/
theorem test_scroll : ((after (.table 0x430000007FFF8000) State.reset).scx, (after (.table 0x430000007FFF8000) State.reset).scy)
      = (192, 0)
    ∧ ((after (.table 0x4300000080007FFF) State.reset).scx, (after (.table 0x4300000080007FFF) State.reset).scy) = (0, 128) := by
  decide
/-- V67: neither axis clamps. -/
theorem test_scroll_inside : ((after (.table 0x4300000000BF007F) State.reset).scx, (after (.table 0x4300000000BF007F) State.reset).scy)
    = (191, 127) := by decide
/-- V67's answer. -/
theorem test_scrollget : answer (after (.table 0x4400000000000000) { State.reset with scx := 191, scy := 127 })
    = some (.okData 0x00BF007F) := by decide
/-- P4 step 8: scrolled by (3, 1). -/
theorem test_bgrow : (List.range 10).map (fun c => (after (.table 0x4500020000000000) { p4 with scx := 3, scy := 1 }).fbAt c 2)
    = [0x000000, 0xFCFCFF, 0x0000FF, 0x00FC00, 0xFC0000, 0x000000, 0xFC0000, 0x00FC00, 0x0000FF, 0x000000] := by decide +kernel
/-- P4 step 12: the last map entry. -/
theorem test_bgrow_edge : (List.range 8).map (fun c => (after (.table 0x45007F0000000000) { p4 with scx := 192, scy := 128 }).fb.read (24568 + c))
    = [0x000000, 0xFC0000, 0x00FC00, 0x0000FF, 0x000000, 0x000000, 0x000000, 0x000000] := by decide +kernel
/-- V85: exactly one pixel is inside. -/
theorem test_sprdraw_corner : (after (.table 0x50000700FFF1FFF1) p5).fb = [(0, 0x0000FF)]
    ∧ (after (.table 0x5000070000BF007F) p5).fb = [(24575, 0xFC0000)] := by decide +kernel
/-- V81, the columns 0 to 13 of row 120. -/
theorem test_sprdraw : (List.range 14).map (fun c => (after (.table 0x50000700FFFD0078) p5).fbAt c 120)
    = List.replicate 5 0xFC0000 ++ List.replicate 8 0x00FC00 ++ [0] := by decide +kernel

/-- V100 and V101. -/
theorem test_modeset : (after (.table 0x6000000000000001) State.reset).status = 0x00000200
    ∧ (after (.table 0x6000000000000002) { State.reset with mode := 1 }).mode = 0 := by decide
/-- V106. -/
theorem test_rowpalset : (after (.table 0x610000000000010F) State.reset).status = 0x0000F000 := by decide
/-- V105. -/
theorem test_rowpalset_fault : answer (after (.table 0x6100000000000010) State.reset) = some (.err 0x32) := by decide
/-- V117. -/
theorem test_statget : answer (after (.table 0x7000000000000000)
    { State.reset with bgp := 3, rowpal := 15, mode := 1, haltSent := 1, fcause := 0x11 }) = some (.okData 0x0003F311) := by decide
/-- V119. -/
theorem test_reserved : answer (after (.table 0x4600000000000000) State.reset) = some (.err 0x13)
    ∧ (after (.table 0x4600000000000000) State.reset).fcause = 0x13 := by decide
/-- V111. -/
theorem test_tick : answer (after (.tick 1) State.reset) = some (.haltReq 1)
    ∧ (after (.tick 1) State.reset).status = 0x00000100 := by decide
/-- V112, and P6 step 8: faulted. -/
theorem test_tick_once : answer (after (.tick 1) { State.reset with haltSent := 1 }) = some (.haltReq 0)
    ∧ answer (after (.tick 1) { State.reset with fcause := 0x31 }) = some (.haltReq 0) := by decide

/-- P6 steps 2 and 3: a faulted block refuses, and pops nothing. -/
theorem test_faulted : answer (after (.signal 3) { State.reset with fcause := 0x31, vmStack := [7] }) = some (.err 0x31)
    ∧ (after (.signal 2) { State.reset with fcause := 0x31, vmStack := [7] }).vmStack = [7] := by decide

/-- A word placed by withFetchWord is the next one run, as the first after reset. -/
theorem test_withFetchWord : step (State.reset.withFetchWord 64 0x6000000000000001) = exec (.modeset 1) State.reset := by rfl

/-! ## Witnesses: what meets the hypotheses of each statement, each clause at a boundary value -/

/-- The bytes 0, 1, ..., 15, 0, 1, ... -/
def demoBytes (c : Nat) : U8 := BitVec.ofNat 8 (c % 16)

/-- A block in use: P5's tiles and sprite, sprite 1 of one tile, the last map entry naming the last tile, both scroll
offsets at their largest, and a VM about to write row 127 twice, its 192 bytes ending at the end of the page. -/
def demo : State :=
  vm 64 [127, 127] ((List.range 192).map demoBytes)
    { p5 with sprW := [(1, 1), (7, 2)], sprH := [(1, 1), (7, 2)], bg := [(0, 10), (1535, 6143)], scx := 192, scy := 128,
              bgp := 2, rowpal := 2 }

/-- A faulted block. -/
def faulted : State := { demo with fcause := 0x31 }

theorem demo_rowBytes : RowBytes demo demoBytes := by unfold RowBytes; decide +kernel

theorem demo_ranges : Ranges demo where
  scx_le := by decide
  scy_le := by decide
  bg_lt _ _ _ _ := Store.read_of_cells (P := fun v => v.toNat < 6144) (by decide) (by decide +kernel) _
  sprTile_lt _ _ _ _ := Store.read_of_cells (P := fun v => v.toNat < 6144) (by decide) (by decide +kernel) _
  sprDims := by decide +kernel

theorem demo_inv : StateInv demo where
  ranges := demo_ranges
  cause := .inl rfl
  canonical := by constructor <;> decide +kernel

theorem reset_blockAtReset (inbox : List Input) : BlockAtReset { State.reset with inbox := inbox } := by
  constructor <;> rfl

/-- The next state an outcome answers. -/
def nextState : Out → Option State
  | .next t => some t
  | .fault _ => none
  | .refused _ => none

theorem next_such {o : Out} (P : State → Bool) (h : (nextState o).any P = true) : ∃ t, o = .next t ∧ P t = true := by
  cases o with
  | next t => exact ⟨t, rfl, h⟩
  | fault _ => cases h
  | refused _ => cases h

/-- `demo`'s row write succeeds, pops one byte and changes the framebuffer. -/
theorem demo_wrow : ∃ t, exec .wrow demo = .next t
    ∧ (t.fcause == 0 && t.vmStack == [127] && t.fb != demo.fb && t.presents == []) = true :=
  next_such _ (by decide +kernel)

theorem witness_DecodeOfEncodeIsTheOperation : (Instr.sprdraw 0xFFFF 0x8000 0x7FFF).wellFormed = true
    ∧ (Instr.nop 0).wellFormed = true ∧ (Instr.nop 3).wellFormed = true ∧ (Instr.reserved 0x01).wellFormed = true
    ∧ (Instr.reserved 0xFF).wellFormed = true := by decide

theorem witness_TableDecoderFollowsTheOpcodeMap : (0x01 : U8).toNat ∉ opcodes ∧ (0x71 : U8).toNat ∉ opcodes
    ∧ (0xFF : U8).toNat ∉ opcodes := by decide

theorem witness_SignalDecoderComparesAllBits : ((0 : U16).toNat ≠ 1 ∧ (0 : U16).toNat ≠ 2)
    ∧ ((3 : U16).toNat ≠ 1 ∧ (3 : U16).toNat ≠ 2) ∧ ((0xFFFF : U16).toNat ≠ 1 ∧ (0xFFFF : U16).toNat ≠ 2) := by decide

theorem witness_StepRunsThePresentedWord :
    ({ demo with inbox := [.word (.signal 2), .reset] } : State).inbox = .word (.signal 2) :: [.reset] := rfl

theorem witness_StepWithoutAWord : State.reset.inbox = []
    ∧ ({ demo with inbox := [.environment [1] [(3, 7), (3, 8)] false] } : State).inbox
      = .environment [1] [(3, 7), (3, 8)] false :: []
    ∧ ({ demo with inbox := [.reset, .word (.tick 1)] } : State).inbox = .reset :: [.word (.tick 1)] := ⟨rfl, rfl, rfl⟩

theorem witness_EveryWordIsAnsweredOnce :
    (∃ t, exec .present demo = .next t ∧ (t.responses == [.ok]) = true)
    ∧ (∃ t, exec (.palset 15 15 0xFF) demo = .next t ∧ (!reads (.palset 15 15 0xFF) && t.responses == [.okData 0]) = true)
    ∧ (∃ t, exec (.tick 1) demo = .next t ∧ (t.responses == [.haltReq 1]) = true) :=
  ⟨next_such _ (by decide +kernel), next_such _ (by decide +kernel), next_such _ (by decide +kernel)⟩

theorem witness_EveryStepKeepsTheInvariant : ∃ s t, StateInv s ∧ step s = .next t ∧ (t.scx == 0) = true :=
  ⟨demo.withFetchWord 64 0x4300000000000000, by
    obtain ⟨t, h, ht⟩ := next_such (o := step (demo.withFetchWord 64 0x4300000000000000)) (fun t => t.scx == 0)
      (by decide +kernel)
    obtain ⟨r, c, k⟩ := demo_inv
    exact ⟨t, ⟨⟨r.1, r.2, r.3, r.4, r.5⟩, c, ⟨k.1, k.2, k.3, k.4, k.5, k.6, k.7, k.8, k.9⟩⟩, h, ht⟩⟩

theorem witness_NoStepStopsUnderTheInvariant : StateInv demo := demo_inv

theorem witness_RunsFromResetStayInRange : ∃ s, BlockAtReset s ∧ Memory.wf s.vmMem = true ∧ s.inbox ≠ [] :=
  ⟨{ State.reset with inbox := [.word (.signal 2), .environment [5] [(0, 1)] true] }, reset_blockAtReset _, by decide,
    by decide⟩

theorem witness_FaultedBlockRefusesEveryWord : faulted.fcause ≠ 0 ∧ (Instr.tick 1).port = .tick
    ∧ (Instr.wrow ≠ .statget ∧ Instr.wrow.port ≠ .tick) := by decide

theorem witness_FaultedUntilReset : ∃ s : State, s.fcause ≠ 0 ∧ Input.reset ∉ s.inbox.take 2 ∧ s.inbox.length = 3 :=
  ⟨{ faulted with inbox := [.word (.signal 2), .environment [] [] true, .reset] }, by decide, by decide, rfl⟩

theorem witness_AFaultChangesOnlyTheCause :
    (demo.fcause = 0 ∧ ∃ t, exec (.palset 16 0 0) demo = .next t ∧ (t.fcause != 0) = true)
    ∧ (∃ t, exec .wrow { demo with pageBytes := 255 } = .next t ∧ (t.fcause != 0 && t.vmStack == [127]) = true)
    ∧ (∃ t, exec .present { demo with displayOk := false } = .next t ∧ (t.fcause != 0) = true) :=
  ⟨⟨rfl, next_such _ (by decide +kernel)⟩, next_such _ (by decide +kernel), next_such _ (by decide +kernel)⟩

theorem witness_EachOperationRaisesOnlyItsCauses :
    demo.fcause = 0 ∧ ∃ t, exec (.sprseth 255 15 33 0) demo = .next t ∧ (t.fcause != 0) = true :=
  ⟨rfl, next_such _ (by decide +kernel)⟩

theorem witness_PalsetWritesOneEntry : demo.fcause = 0 ∧ (15 : U16).toNat < 16 ∧ (15 : U8).toNat < 16
    ∧ 16 ≤ (16 : U16).toNat ∧ 16 ≤ (16 : U8).toNat := by decide

theorem witness_ResolveAnswersTheColour : demo.fcause = 0 ∧ demo.mode = 0 ∧ ({ demo with mode := 1 } : State).mode ≠ 0
    ∧ (15 : U16).toNat < 16 ∧ (15 : U8).toNat < 16 ∧ 16 ≤ (16 : U16).toNat ∧ 16 ≤ (16 : U8).toNat := by decide

theorem witness_PaletteRoundTrip : demo.fcause = 0 ∧ demo.mode = 0 ∧ (2 : U16).toNat < 16 ∧ (15 : U8).toNat < 16
    ∧ demo.rowpal.toNat = (2 : U16).toNat ∧ demo.vmStack = 127 :: [127] ∧ RowBytes demo demoBytes ∧ (127 : U8).toNat < 128
    ∧ (∀ c, c < 192 → (demoBytes c).toNat < 16) ∧ ∀ c, c < 16 → (demoBytes c).toNat = c :=
  ⟨rfl, rfl, by decide, by decide, by decide, rfl, demo_rowBytes, by decide, by decide +kernel, by decide +kernel⟩

theorem witness_TilesetWritesOneRow : demo.fcause = 0 ∧ (6143 : U16).toNat < 6144 ∧ (7 : U8).toNat < 8
    ∧ 6144 ≤ (6144 : U16).toNat ∧ 8 ≤ (8 : U8).toNat := by decide

theorem witness_TilegetAnswersTheRow : demo.fcause = 0 ∧ (6143 : U16).toNat < 6144 ∧ (7 : U8).toNat < 8
    ∧ 6144 ≤ (6144 : U16).toNat ∧ 8 ≤ (8 : U8).toNat := by decide

theorem witness_SprsethWritesTheHeader : demo.fcause = 0 ∧ (255 : U16).toNat < 256 ∧ (15 : U8).toNat < 16
    ∧ ((32 : U8).toNat ≤ 32 ∧ (1 : U8).toNat ≤ 32 ∧ (32 : U8).toNat * (1 : U8).toNat ≤ 32)
    ∧ 256 ≤ (256 : U16).toNat ∧ 16 ≤ (16 : U8).toNat ∧ 32 < (33 : U8).toNat
    ∧ 32 < (11 : U8).toNat * (3 : U8).toNat := by decide

theorem witness_SprsettWritesOneSlot : demo.fcause = 0 ∧ (255 : U16).toNat < 256 ∧ (31 : U8).toNat < 32
    ∧ (6143 : U16).toNat < 6144 ∧ 256 ≤ (256 : U16).toNat ∧ 32 ≤ (32 : U8).toNat ∧ 6144 ≤ (6144 : U16).toNat := by decide

theorem witness_SprgethAnswersTheHeader : demo.fcause = 0 ∧ (255 : U16).toNat < 256 ∧ 256 ≤ (256 : U16).toNat := by decide

theorem witness_SprgettAnswersTheSlot : demo.fcause = 0 ∧ (255 : U16).toNat < 256 ∧ (31 : U8).toNat < 32
    ∧ 256 ≤ (256 : U16).toNat ∧ 32 ≤ (32 : U8).toNat := by decide

theorem witness_BgsetWritesOneMapEntry : demo.fcause = 0 ∧ (47 : U16).toNat < 48 ∧ (31 : U8).toNat < 32
    ∧ (6143 : U16).toNat < 6144 ∧ 48 ≤ (48 : U16).toNat ∧ 32 ≤ (32 : U8).toNat ∧ 6144 ≤ (6144 : U16).toNat := by decide

theorem witness_BggetAnswersTheMapEntry : demo.fcause = 0 ∧ (47 : U16).toNat < 48 ∧ (31 : U8).toNat < 32
    ∧ 48 ≤ (48 : U16).toNat ∧ 32 ≤ (32 : U8).toNat := by decide

theorem witness_BgpalSetsThePlanePalette : demo.fcause = 0 ∧ (15 : U8).toNat < 16 ∧ 16 ≤ (16 : U8).toNat := by decide

/-- Where two clauses of one axis meet, 0 and 192 (128), they say the same. -/
theorem witness_ScrollClampsEachAxis : demo.fcause = 0 ∧ (0xFFFF : U16).toInt ≤ 0 ∧ (0 : U16).toInt = 0
    ∧ (192 : U16).toInt = 192 ∧ (128 : U16).toInt = 128 ∧ 192 ≤ (0x7FFF : U16).toInt ∧ (0x8000 : U16).toInt ≤ 0 := by decide

theorem witness_ScrollgetAnswersTheOffset : demo.fcause = 0 := rfl

theorem witness_BgrowRendersOneRow : demo.fcause = 0 ∧ Ranges demo ∧ (127 : U16).toNat < 128 ∧ 128 ≤ (128 : U16).toNat :=
  ⟨rfl, demo_ranges, by decide, by decide⟩

theorem witness_BgframeRendersTheWholeViewport :
    ∃ s, s.fcause = 0 ∧ Ranges s ∧ Presents s bgFrameOps [.word (.signal 1)] :=
  ⟨{ demo with inbox := bgFrameOps.map (fun i => .word (encode i)) ++ [.word (.signal 1)] }, rfl,
    ⟨demo_ranges.1, demo_ranges.2, demo_ranges.3, demo_ranges.4, demo_ranges.5⟩, rfl⟩

theorem witness_SettileWritesAWholeTile : ∃ s, s.fcause = 0 ∧ (6143 : U16).toNat < 6144
    ∧ Presents s (setTileOps 6143 (Vector.replicate 8 0x01234567)) [] :=
  ⟨{ demo with inbox := (setTileOps 6143 (Vector.replicate 8 0x01234567)).map (fun i => .word (encode i)) ++ [] }, rfl,
    by decide, rfl⟩

theorem witness_SprdrawComposesTheSprite : demo.fcause = 0 ∧ Ranges demo ∧ (255 : U16).toNat < 256
    ∧ (7 : U16).toNat < 256 ∧ (demo.sprW.read 7).toNat * (demo.sprH.read 7).toNat = 4 ∧ 256 ≤ (256 : U16).toNat :=
  ⟨rfl, demo_ranges, by decide, by decide, by decide, by decide⟩

theorem witness_TileDrawsIgnoreModeAndRowPalette :
    (∃ t, exec (.bgrow 127) demo = .next t ∧ (t.fcause == 0) = true)
    ∧ (∃ t, exec (.sprdraw 1 0xFFF9 127) demo = .next t ∧ (t.fcause == 0) = true) :=
  ⟨next_such _ (by decide +kernel), next_such _ (by decide +kernel)⟩

theorem witness_WrowWritesOneRowOrFaults :
    ({ demo with vmStack := [] } : State).vmStack = []
    ∧ RowBytesMissing { demo with pageBytes := 255 }
    ∧ RowBytesMissing { demo with vmMem := demo.vmMem.take 191 }
    ∧ (demo.fcause = 0 ∧ demo.vmStack = 127 :: [127] ∧ RowBytes demo demoBytes ∧ (127 : U8).toNat < 128 ∧ demo.mode = 0
      ∧ ∀ c, c < 192 → (demoBytes c).toNat < 16)
    ∧ ({ demo with mode := 1 } : State).mode ≠ 0 ∧ 128 ≤ (128 : U8).toNat
    ∧ (∃ s : State, s.mode = 0 ∧ s.vmStack = 127 :: [] ∧ RowBytes s fun c => if c = 191 then 16 else 0) :=
  ⟨rfl, .inl (by decide), .inr ⟨191, by decide, by decide +kernel⟩,
    ⟨rfl, rfl, demo_rowBytes, by decide, rfl, by decide +kernel⟩, by decide, by decide,
    vm 0 [127] (List.replicate 191 0 ++ [16]) State.reset, rfl, rfl, by unfold RowBytes; decide +kernel⟩

/-- A block with other tiles, map and framebuffer, and the same row-write inputs. -/
theorem witness_RowWriteDependsOnBytesModeAndRowPalette :
    ∃ s' : State, s'.fcause = 0 ∧ s'.vmStack = 127 :: [] ∧ s'.mode = demo.mode ∧ s'.rowpal = demo.rowpal
      ∧ (∀ i, i < 16 → s'.palAt demo.rowpal.toNat i = demo.palAt demo.rowpal.toNat i)
      ∧ s'.rowBase = demo.rowBase ∧ s'.pageBytes = demo.pageBytes
      ∧ (∀ c, c < 192 → s'.vmMem.read (demo.rowBase + c) = demo.vmMem.read (demo.rowBase + c))
      ∧ (∃ t, exec .wrow demo = .next t ∧ t.fcause = 0)
      ∧ (∃ t', exec .wrow s' = .next t' ∧ (t'.fcause == 0) = true) :=
  ⟨{ demo with tile := [], bg := [], fb := [(0, 1)], vmStack := [127] }, rfl, rfl, rfl, rfl, fun _ _ => rfl, rfl, rfl,
    fun _ _ => rfl, demo_wrow.imp fun _ h => ⟨h.1, by simp_all⟩, next_such _ (by decide +kernel)⟩

theorem witness_RowWriteTwiceIsOnce : demo.fcause = 0 ∧ demo.vmStack = 127 :: 127 :: []
    ∧ ∃ t, exec .wrow demo = .next t ∧ t.fcause = 0 :=
  ⟨rfl, rfl, demo_wrow.imp fun _ h => ⟨h.1, by simp_all⟩⟩

theorem witness_RowIndexOutOfBoundsWritesNothing : ∃ s : State, s.fcause = 0 ∧ s.vmStack = 128 :: [] ∧ 128 ≤ (128 : U8).toNat
    ∧ ∃ t, exec .wrow s = .next t ∧ (t.fcause == 0x12) = true :=
  ⟨{ State.reset with vmStack := [128] }, rfl, rfl, by decide, next_such _ (by decide +kernel)⟩

theorem witness_ModesetChoosesThePolicy : demo.fcause = 0 := rfl

theorem witness_RowpalsetSetsTheRowPalette : demo.fcause = 0 ∧ (15 : U8).toNat < 16 ∧ 16 ≤ (16 : U8).toNat := by decide

theorem witness_PresentHandsOverTheFramebuffer : demo.fcause = 0 ∧ demo.displayOk = true
    ∧ ({ demo with displayOk := false } : State).displayOk = false := ⟨rfl, rfl, rfl⟩

theorem witness_NopSignalsChangeNothing : (3 : U16).toNat ≠ 1 ∧ (3 : U16).toNat ≠ 2 ∧ demo.fcause = 0 := by decide

theorem witness_TnopChangesNothing : demo.fcause = 0 := rfl

theorem witness_TickAsksTheVmToHaltOnce : demo.fcause = 0 ∧ demo.haltSent = 0 ∧ faulted.fcause ≠ 0
    ∧ ({ demo with haltSent := 1 } : State).haltSent = 1 := by decide

/-- `TICK 1` twice: one halt request, two answers. -/
theorem witness_HaltRequestAtMostOnceBetweenResets : ∃ s : State, Input.reset ∉ s.inbox.take 2
    ∧ ∃ t, run 2 s = .next t ∧ (t.responses == [.haltReq 0, .haltReq 1]) = true :=
  ⟨{ demo with inbox := [.word (.tick 1), .word (.tick 1), .reset] }, by decide, next_such _ (by decide +kernel)⟩

theorem witness_ReservedWordRaisesProtocolViolation : demo.fcause = 0 ∧ (Instr.reserved 0xFF).wellFormed = true := by decide

/-- Each kind of state is changed by one of its writers. -/
theorem witness_EachStoreHasOnlyItsWriters :
    (∃ t, exec (.palset 15 15 1) demo = .next t ∧ (t.pal != demo.pal) = true)
    ∧ (∃ t, exec (.tileset 6143 7 1) demo = .next t ∧ (t.tile != demo.tile) = true)
    ∧ (∃ t, exec (.sprseth 255 15 32 1) demo = .next t ∧ (t.sprPal != demo.sprPal) = true)
    ∧ (∃ t, exec (.sprsett 255 31 6143) demo = .next t ∧ (t.sprTile != demo.sprTile) = true)
    ∧ (∃ t, exec (.bgset 47 31 1) demo = .next t ∧ (t.bg != demo.bg) = true)
    ∧ (∃ t, exec .wrow demo = .next t ∧ t.fb ≠ demo.fb)
    ∧ (∃ t, exec (.scroll 191 127) demo = .next t ∧ (t.scx != demo.scx) = true)
    ∧ (∃ t, exec (.bgpal 15) demo = .next t ∧ (t.bgp != demo.bgp) = true)
    ∧ (∃ t, exec (.modeset 1) demo = .next t ∧ (t.mode != demo.mode) = true)
    ∧ (∃ t, exec (.rowpalset 15) demo = .next t ∧ (t.rowpal != demo.rowpal) = true)
    ∧ (∃ t, exec (.tick 1) demo = .next t ∧ (t.haltSent != demo.haltSent) = true)
    ∧ (∃ t, exec (.bgrow 128) demo = .next t ∧ (t.fcause != demo.fcause) = true) := by
  refine ⟨?_, ?_, ?_, ?_, ?_, demo_wrow.imp fun _ h => ⟨h.1, by simp_all⟩, ?_, ?_, ?_, ?_, ?_, ?_⟩ <;>
    exact next_such _ (by decide +kernel)

theorem witness_TheEnvironmentIsOnlyPoppedAndPresentedTo :
    (∃ t, exec .wrow demo = .next t ∧ t.vmStack = [127])
    ∧ (∃ t, exec .present demo = .next t ∧ (t.presents.length == 1) = true) :=
  ⟨demo_wrow.imp fun _ h => ⟨h.1, by simp_all⟩, next_such _ (by decide +kernel)⟩

/-- `TILESET 0, 0, 0x11111111`, then `BGROW 0`, from reset. -/
theorem witness_BlackUntilAPaletteEntryOrDirectMode : ∃ s, BlockAtReset s
    ∧ (∀ w, Input.word w ∈ s.inbox.take 2 → (∀ p i v, decode w ≠ .palset p i v) ∧ decode w ≠ .modeset 1)
    ∧ ∃ t, run 2 s = .next t ∧ (t.fcause == 0) = true := by
  refine ⟨{ State.reset with inbox := [.word (.table 0x2000000011111111), .word (.table 0x4500000000000000)] },
    reset_blockAtReset _, fun w hw => ?_, next_such _ (by decide +kernel)⟩
  have e1 : decode (.table 0x2000000011111111) = .tileset 0 0 0x11111111 := by decide
  have e2 : decode (.table 0x4500000000000000) = .bgrow 0 := by decide
  have : w = .table 0x2000000011111111 ∨ w = .table 0x4500000000000000 := by simpa using hw
  rcases this with rfl | rfl
  · rw [e1]; exact ⟨nofun, nofun⟩
  · rw [e2]; exact ⟨nofun, nofun⟩

/-- A block with tiles, a map and a scroll offset, but black palettes, about to render row 127. -/
theorem witness_BlackIsKeptByEveryStepButTwo : ∃ s, AllBlack s ∧ s.tile ≠ [] ∧ s.bg ≠ []
    ∧ (∀ w rest, s.inbox = .word w :: rest → (∀ p i v, decode w ≠ .palset p i v) ∧ decode w ≠ .modeset 1)
    ∧ ∃ t, step s = .next t ∧ (t.responses == [.okData 0]) = true := by
  refine ⟨{ p4 with pal := [], scx := 192, scy := 128, inbox := [.word (.table 0x45007F0000000000)] },
    ⟨fun _ _ => rfl, fun _ _ => rfl, rfl⟩, by decide, by decide, fun w rest h => ?_, next_such _ (by decide +kernel)⟩
  have e : decode (.table 0x45007F0000000000) = .bgrow 127 := by decide
  cases h
  rw [e]
  exact ⟨nofun, nofun⟩

end Sys2Proof.Tests
end

/-! ## What an operation does to each piece of state (10_state.md R14 to R24)

Each lemma is an inversion for one store or register: it is as before, or the operation is one of its writers, and then what
was written where. -/

namespace Sys2Proof.Machine

section Pieces

variable {i : Instr} {s t : State}

theorem Effect.pal_cases (h : Effect i s t) :
    t.pal = s.pal ∨ ∃ p j v, i = .palset p j v ∧ p.toNat < 16 ∧ j.toNat < 16 ∧
      t.pal = s.pal.write (palKey p.toNat j.toNat) v := by
  cases h with
  | palset _ p j v hi hp hj => exact .inr ⟨p, j, v, hi, hp, hj, rfl⟩
  | _ => exact .inl rfl

theorem Effect.tile_cases (h : Effect i s t) :
    t.tile = s.tile ∨ ∃ n r row, i = .tileset n r row ∧ n.toNat < 6144 ∧ r.toNat < 8 ∧
      t.tile = s.tile.write (tileKey n.toNat r.toNat) row := by
  cases h with
  | tileset _ n r row hi hn hr => exact .inr ⟨n, r, row, hi, hn, hr, rfl⟩
  | _ => exact .inl rfl

theorem Effect.sprHeader_cases (h : Effect i s t) :
    (t.sprPal = s.sprPal ∧ t.sprW = s.sprW ∧ t.sprH = s.sprH) ∨
    ∃ n p wd ht, i = .sprseth n p wd ht ∧ n.toNat < 256 ∧ spriteDimsOk wd ht = true ∧
      t.sprPal = s.sprPal.write n.toNat (p.setWidth 4) ∧ t.sprW = s.sprW.write n.toNat wd ∧
      t.sprH = s.sprH.write n.toNat ht := by
  cases h with
  | sprseth _ n p wd ht hi hn _ hd => exact .inr ⟨n, p, wd, ht, hi, hn, hd, rfl, rfl, rfl⟩
  | _ => exact .inl ⟨rfl, rfl, rfl⟩

theorem Effect.sprTile_cases (h : Effect i s t) :
    t.sprTile = s.sprTile ∨ ∃ n k id, i = .sprsett n k id ∧ n.toNat < 256 ∧ k.toNat < 32 ∧ id.toNat < 6144 ∧
      t.sprTile = s.sprTile.write (sprTileKey n.toNat k.toNat) (id.setWidth 13) := by
  cases h with
  | sprsett _ n k id hi hn hk hid => exact .inr ⟨n, k, id, hi, hn, hk, hid, rfl⟩
  | _ => exact .inl rfl

theorem Effect.bg_cases (h : Effect i s t) :
    t.bg = s.bg ∨ ∃ px py id, i = .bgset px py id ∧ px.toNat < 48 ∧ py.toNat < 32 ∧ id.toNat < 6144 ∧
      t.bg = s.bg.write (bgKey px.toNat py.toNat) (id.setWidth 13) := by
  cases h with
  | bgset _ px py id hi hx hy hid => exact .inr ⟨px, py, id, hi, hx, hy, hid, rfl⟩
  | _ => exact .inl rfl

/-- The framebuffer gets a whole row, or the pixels of a sprite, inside its bounds. -/
theorem Effect.fb_cases (h : Effect i s t) :
    t.fb = s.fb ∨
    ((i = .wrow ∨ ∃ y, i = .bgrow y) ∧ ∃ y pxs, y < 128 ∧ pxs.length = 192 ∧
      t.fb = s.fb.writeRun (fbKey 0 y) pxs) ∨
    ((∃ n x y, i = .sprdraw n x y) ∧ ∃ ps : List (Nat × U24), (∀ p ∈ ps, p.1 < 24576) ∧ t.fb = s.fb.writeAll ps) := by
  cases h with
  | rowWritten _ hi b _ _ bytes pxs hm hb hl =>
    exact .inr (.inl ⟨.inl hi, b.toNat, pxs, hb, (collect_length hl).trans (length_of_memRead hm), rfl⟩)
  | bgrow _ y hi hy pxs hl =>
    exact .inr (.inl ⟨.inr ⟨y, hi⟩, y.toNat, pxs, hy, by simpa using collect_length hl, rfl⟩)
  | sprdraw _ n x y hi _ ps hl =>
    refine .inr (.inr ⟨⟨n, x, y, hi⟩, ps.flatten, fun p hp => ?_, rfl⟩)
    obtain ⟨qs, hqs, hpq⟩ := List.mem_flatten.1 hp
    obtain ⟨q, -, hq⟩ := mem_of_collect hl hqs
    exact drawPixel_keys hq p hpq
  | _ => exact .inl rfl

theorem Effect.scroll_cases (h : Effect i s t) :
    (t.scx = s.scx ∧ t.scy = s.scy) ∨ ∃ x y, i = .scroll x y ∧
      t.scx = BitVec.ofInt 8 (clamp (sint16 x) 0 192) ∧ t.scy = BitVec.ofInt 8 (clamp (sint16 y) 0 128) := by
  cases h with
  | scroll _ x y hi => exact .inr ⟨x, y, hi, rfl, rfl⟩
  | _ => exact .inl ⟨rfl, rfl⟩

theorem Effect.bgp_cases (h : Effect i s t) : t.bgp = s.bgp ∨ ∃ p, i = .bgpal p := by
  cases h with
  | bgpal _ p _ hi => exact .inr ⟨p, hi⟩
  | _ => exact .inl rfl

theorem Effect.mode_cases (h : Effect i s t) : t.mode = s.mode ∨ ∃ m, i = .modeset m := by
  cases h with
  | modeset _ m hi => exact .inr ⟨m, hi⟩
  | _ => exact .inl rfl

theorem Effect.rowpal_cases (h : Effect i s t) : t.rowpal = s.rowpal ∨ ∃ p, i = .rowpalset p := by
  cases h with
  | rowpalset _ p _ hi => exact .inr ⟨p, hi⟩
  | _ => exact .inl rfl

theorem Effect.haltSent_cases (h : Effect i s t) : t.haltSent = s.haltSent ∨ ∃ q, i = .tick q := by
  cases h with
  | tickHalt q hi => exact .inr ⟨q, hi⟩
  | _ => exact .inl rfl

/-- `FCAUSE` gets the code of a cause, and that is what the port answers (60_exceptions.md R100). -/
theorem Effect.fcause_cases (h : Effect i s t) :
    t.fcause = s.fcause ∨ ∃ c : Cause, t.fcause = c.code ∧ t.responses = .err c.code :: s.responses := by
  cases h with
  | raised _ c => exact .inr ⟨c, rfl, rfl⟩
  | notTaken => exact .inr ⟨.dbfPresent, rfl, rfl⟩
  | stackEmpty => exact .inr ⟨.pvStackEmpty, rfl, rfl⟩
  | rowFault _ _ _ _ _ c => exact .inr ⟨c, rfl, rfl⟩
  | _ => exact .inl rfl

theorem Effect.vmMem_eq (h : Effect i s t) : t.vmMem = s.vmMem := by
  cases h <;> rfl

end Pieces

/-- Settles O52: each clause is the inversion lemma of its store or register. -/
theorem eachStoreHasOnlyItsWriters : Obligations.EachStoreHasOnlyItsWriters := by
  intro i s t h
  have e := effect_of_exec h
  refine ⟨fun hn => ?pal, fun hn => ?tile, fun hn => ?sprHeader, fun hn => ?sprTile, fun hn => ?bg, fun hn => ?fb,
    fun hn => ?scroll, e.bgp_cases.resolve_left, e.mode_cases.resolve_left, e.rowpal_cases.resolve_left,
    e.haltSent_cases.resolve_left, fun hn => ?fcause⟩
  case pal =>
    obtain ⟨p, j, v, hi, -⟩ := e.pal_cases.resolve_left hn
    exact ⟨p, j, v, hi⟩
  case tile =>
    obtain ⟨n, r, row, hi, -⟩ := e.tile_cases.resolve_left hn
    exact ⟨n, r, row, hi⟩
  case sprHeader =>
    obtain ⟨hp, hw, hh⟩ | ⟨n, p, wd, ht, hi, -⟩ := e.sprHeader_cases
    · simp [hp, hw, hh] at hn
    · exact ⟨n, p, wd, ht, hi⟩
  case sprTile =>
    obtain ⟨n, k, id, hi, -⟩ := e.sprTile_cases.resolve_left hn
    exact ⟨n, k, id, hi⟩
  case bg =>
    obtain ⟨px, py, id, hi, -⟩ := e.bg_cases.resolve_left hn
    exact ⟨px, py, id, hi⟩
  case fb =>
    obtain ⟨hrow, -⟩ | ⟨hspr, -⟩ := e.fb_cases.resolve_left hn
    · exact hrow.imp_right .inl
    · exact .inr (.inr hspr)
  case scroll =>
    obtain ⟨hx, hy⟩ | ⟨x, y, hi, -⟩ := e.scroll_cases
    · simp [hx, hy] at hn
    · exact ⟨x, y, hi⟩
  case fcause =>
    obtain ⟨c, hc, hr⟩ := e.fcause_cases.resolve_left hn
    rw [hc]
    exact ⟨c.code_ne_zero, hr⟩

/-! ## The invariant of R27 is kept by every operation -/

section Invariant

variable {i : Instr} {s t : State}

/-- A scroll register holds its clamped value, without wrap-around (42_background.md R73). -/
theorem toNat_ofInt_clamp_le (v : Int) {hi : Nat} (h : hi < 256) :
    (BitVec.ofInt 8 (clamp v 0 hi)).toNat ≤ hi := by
  obtain ⟨hlo, hhi⟩ := clamp_of_le (v := v) (Int.natCast_nonneg hi)
  rw [BitVec.toNat_ofInt, Int.emod_eq_of_lt hlo (by omega)]
  omega

/-- A tile id that has passed its check keeps its value in the 13 bits of a store's entry. -/
theorem toNat_setWidth_tile {id : U16} (h : id.toNat < 6144) : (id.setWidth 13).toNat < 6144 := by
  rw [BitVec.toNat_setWidth]
  exact Nat.lt_of_le_of_lt (Nat.mod_le _ _) h

/-- A bound on the entries of a store survives the write of a value within the bound. -/
theorem Store.read_write_lt {w b : Nat} {st : Store w} {k j : Nat} {v : BitVec w} (hv : v.toNat < b)
    (hj : (st.read j).toNat < b) : ((st.write k v).read j).toNat < b := by
  rw [Store.read_write]
  split
  · exact hv
  · exact hj

theorem Effect.ranges (e : Effect i s t) (hr : Ranges s) : Ranges t where
  scx_le := by
    obtain ⟨hx, -⟩ | ⟨x, y, -, hx, -⟩ := e.scroll_cases <;> rw [hx]
    · exact hr.scx_le
    · exact toNat_ofInt_clamp_le _ (hi := 192) (by decide)
  scy_le := by
    obtain ⟨-, hy⟩ | ⟨x, y, -, -, hy⟩ := e.scroll_cases <;> rw [hy]
    · exact hr.scy_le
    · exact toNat_ofInt_clamp_le _ (hi := 128) (by decide)
  bg_lt px py hx hy := by
    have old := hr.bg_lt px py hx hy
    unfold State.bgAt at old ⊢
    obtain hb | ⟨_, _, id, -, -, -, hid, hb⟩ := e.bg_cases <;> rw [hb]
    · exact old
    · exact Store.read_write_lt (toNat_setWidth_tile hid) old
  sprTile_lt n k hn hk := by
    have old := hr.sprTile_lt n k hn hk
    unfold State.sprTileAt at old ⊢
    obtain hb | ⟨_, _, id, -, -, -, hid, hb⟩ := e.sprTile_cases <;> rw [hb]
    · exact old
    · exact Store.read_write_lt (toNat_setWidth_tile hid) old
  sprDims n hn := by
    obtain ⟨-, hw, hh⟩ | ⟨m, _, wd, ht, -, -, hd, -, hw, hh⟩ := e.sprHeader_cases <;> rw [hw, hh]
    · exact hr.sprDims n hn
    · rw [Store.read_write, Store.read_write]
      by_cases hm : n = m.toNat
      · simpa [hm] using spriteDimsOk_iff.1 hd
      · simpa [hm] using hr.sprDims n hn

theorem Effect.knownCause (e : Effect i s t) (h : KnownCause s) : KnownCause t := by
  obtain hf | ⟨c, hf, -⟩ := e.fcause_cases
  · rwa [KnownCause, hf]
  · exact .inr ⟨c, hf⟩

theorem Effect.canonical (e : Effect i s t) (h : Canonical s) : Canonical t where
  pal := by
    obtain he | ⟨_, _, _, -, hp, hj, he⟩ := e.pal_cases <;> rw [he]
    · exact h.pal
    · exact Store.wf_write h.pal (palKey_lt hp hj) _
  tile := by
    obtain he | ⟨_, _, _, -, hn, hr, he⟩ := e.tile_cases <;> rw [he]
    · exact h.tile
    · exact Store.wf_write h.tile (tileKey_lt hn hr) _
  sprPal := by
    obtain ⟨he, -, -⟩ | ⟨_, _, _, _, -, hn, -, he, -, -⟩ := e.sprHeader_cases <;> rw [he]
    · exact h.sprPal
    · exact Store.wf_write h.sprPal hn _
  sprW := by
    obtain ⟨-, he, -⟩ | ⟨_, _, _, _, -, hn, -, -, he, -⟩ := e.sprHeader_cases <;> rw [he]
    · exact h.sprW
    · exact Store.wf_write h.sprW hn _
  sprH := by
    obtain ⟨-, -, he⟩ | ⟨_, _, _, _, -, hn, -, -, -, he⟩ := e.sprHeader_cases <;> rw [he]
    · exact h.sprH
    · exact Store.wf_write h.sprH hn _
  sprTile := by
    obtain he | ⟨_, _, _, -, hn, hk, -, he⟩ := e.sprTile_cases <;> rw [he]
    · exact h.sprTile
    · exact Store.wf_write h.sprTile (sprTileKey_lt hn hk) _
  bg := by
    obtain he | ⟨_, _, _, -, hx, hy, -, he⟩ := e.bg_cases <;> rw [he]
    · exact h.bg
    · exact Store.wf_write h.bg (bgKey_lt hx hy) _
  fb := by
    obtain he | ⟨-, y, pxs, hy, hl, he⟩ | ⟨-, ps, hps, he⟩ := e.fb_cases <;> rw [he]
    · exact h.fb
    · refine Store.wf_writeRun h.fb pxs ?_
      simp only [fbKey, Config.viewW]
      omega
    · exact Store.wf_writeAll h.fb ps hps
  vmMem := by rw [e.vmMem_eq]; exact h.vmMem

theorem Effect.stateInv (e : Effect i s t) (h : StateInv s) : StateInv t :=
  ⟨e.ranges h.ranges, e.knownCause h.cause, e.canonical h.canonical⟩

/-! ## The invariant under the inputs that are no word -/

/-- A step takes its input from the inbox, which the invariant does not speak of. -/
theorem StateInv.of_inbox (h : StateInv s) (rest : List Input) : StateInv { s with inbox := rest } :=
  ⟨{ h.ranges with }, h.cause, { h.canonical with }⟩

theorem StateInv.of_environment (h : StateInv s) {m : Memory} (hm : Memory.wf m = true) (rest : List Input)
    (stack : List U8) (ok : Bool) :
    StateInv { s with inbox := rest, vmStack := stack, vmMem := m, displayOk := ok } :=
  ⟨{ h.ranges with }, h.cause, { h.canonical with vmMem := hm }⟩

theorem blockAtReset_resetBlock (s : State) : BlockAtReset s.resetBlock := by
  constructor <;> rfl

/-- A block at reset meets the invariant, whatever its parameters and environment: every store is empty, so every entry
reads 0. -/
theorem BlockAtReset.stateInv (h : BlockAtReset s) (hm : Memory.wf s.vmMem = true) : StateInv s where
  ranges :=
    { scx_le := by simp [h.scx]
      scy_le := by simp [h.scy]
      bg_lt := by simp [State.bgAt, h.bg]
      sprTile_lt := by simp [State.sprTileAt, h.sprTile]
      sprDims := by simp [h.sprW, h.sprH] }
  cause := .inl h.fcause
  canonical :=
    { pal := by simp [h.pal]
      tile := by simp [h.tile]
      sprPal := by simp [h.sprPal]
      sprW := by simp [h.sprW]
      sprH := by simp [h.sprH]
      sprTile := by simp [h.sprTile]
      bg := by simp [h.bg]
      fb := by simp [h.fb]
      vmMem := hm }

end Invariant

/-- Settles O10, by what a step takes from the inbox: a word's effect keeps each part of the invariant, and the other inputs
leave the stores alone, replace VM memory by a canonical one, or reset the block. -/
theorem everyStepKeepsTheInvariant : Obligations.EveryStepKeepsTheInvariant := by
  intro s t hs h
  obtain ⟨-, rfl⟩ | ⟨w, rest, -, hw⟩ | ⟨stack, cells, ok, rest, -, rfl⟩ | ⟨rest, -, rfl⟩ := step_cases h
  · exact hs
  · exact (effect_of_exec hw).stateInv (hs.of_inbox rest)
  · exact hs.of_environment (Memory.wf_ofCells cells) rest stack ok
  · exact (blockAtReset_resetBlock _).stateInv hs.canonical.vmMem

/-- Settles O11. -/
theorem resetMeetsTheInvariant : Obligations.ResetMeetsTheInvariant :=
  BlockAtReset.stateInv (by constructor <;> rfl) rfl

/-! ## In range, no operation stops (R27) -/

section Answers

variable {s : State} {act : Out}

theorem unlessFaulted_answers (h : ∃ t, act = .next t) : ∃ t, unlessFaulted s act = .next t := by
  by_cases hf : s.fcause = 0
  · rwa [unlessFaulted_running hf]
  · exact ⟨_, unlessFaulted_faulted hf act⟩

/-- A checked operation answers if it does so where the check holds. -/
theorem require_answers {ok : Bool} {c : Cause} (h : ok = true → ∃ t, act = .next t) :
    ∃ t, require ok c s act = .next t := by
  cases ok
  · exact ⟨_, rfl⟩
  · exact h rfl

theorem execPresent_answers (s : State) : ∃ t, execPresent s = .next t := by
  refine unlessFaulted_answers ?_
  cases hd : s.displayOk <;> simp only [displayPresent, hd]
  · exact ⟨_, rfl⟩
  · exact ⟨_, rfl⟩

theorem execResolve_answers (p : U16) (i : U8) (s : State) : ∃ t, execResolve p i s = .next t := by
  refine unlessFaulted_answers (require_answers fun _ => ?_)
  cases s.resolvePx p.toNat i
  · exact ⟨_, rfl⟩
  · exact ⟨_, rfl⟩

theorem writeRow_answers (row : U8) (bytes : List U8) (s : State) : ∃ t, writeRow row bytes s = .next t := by
  refine require_answers fun _ => ?_
  cases collect (s.resolvePx s.rowpal.toNat) bytes
  · exact ⟨_, rfl⟩
  · exact ⟨_, rfl⟩

theorem execWrow_answers (s : State) : ∃ t, execWrow s = .next t := by
  refine unlessFaulted_answers ?_
  match stackPop s with
  | none => exact ⟨_, rfl⟩
  | some (row, s') =>
    dsimp only
    cases memRead s' s'.rowBase Config.viewW with
    | none => exact ⟨_, rfl⟩
    | some bytes => exact writeRow_answers row bytes s'

theorem execTick_answers (q : U1) (s : State) : ∃ t, execTick q s = .next t := by
  unfold execTick
  split
  · exact ⟨_, rfl⟩
  · split <;> exact ⟨_, rfl⟩

/-- In range, every pixel of a background row in the viewport exists (42_background.md R69, R75). -/
theorem execBgrow_answers (hr : Ranges s) (y : U16) : ∃ t, execBgrow y s = .next t := by
  refine unlessFaulted_answers (require_answers fun hy => ?_)
  have hy : y.toNat < 128 := of_decide_eq_true hy
  have hpx : ∀ sx ∈ List.range Config.viewW, (s.bgRgb sx y.toNat).isSome = true := by
    intro sx hsx
    rw [State.bgRgb, bgPx_of_ranges hr (List.mem_range.1 hsx) hy]
    rfl
  obtain ⟨line, hline⟩ := collect_isSome hpx
  rw [hline]
  exact ⟨_, rfl⟩

/-- In range, every pixel of a sprite exists (43_sprite_engine.md R76, R77). -/
theorem execSprdraw_answers (hr : Ranges s) (sid x y : U16) : ∃ t, execSprdraw sid x y s = .next t := by
  refine unlessFaulted_answers (require_answers fun hn => ?_)
  have hn : sid.toNat < 256 := of_decide_eq_true hn
  obtain ⟨ps, hps⟩ := collect_isSome fun q hq =>
    Option.isSome_of_eq_some (drawPixel_of_ranges hr hn (x := sint16 x) (y := sint16 y) hq)
  rw [hps]
  exact ⟨_, rfl⟩

/-- Only the two drawing operations need the ranges; every other operation answers in every state. -/
theorem exec_answers (hr : Ranges s) (i : Instr) : ∃ t, exec i s = .next t := by
  cases i with
  | present => exact execPresent_answers s
  | wrow => exact execWrow_answers s
  | resolve p i => exact execResolve_answers p i s
  | bgrow y => exact execBgrow_answers hr y
  | sprdraw sid x y => exact execSprdraw_answers hr sid x y
  | tick q => exact execTick_answers q s
  | statget => exact ⟨_, rfl⟩
  | nop | tnop | scroll | scrollget | modeset | reserved => exact unlessFaulted_answers ⟨_, rfl⟩
  | sprgeth | bgget | bgpal | rowpalset => exact unlessFaulted_answers (require_answers fun _ => ⟨_, rfl⟩)
  | palset | tileset | tileget | sprgett | bgset =>
    exact unlessFaulted_answers (require_answers fun _ => require_answers fun _ => ⟨_, rfl⟩)
  | sprseth | sprsett =>
    exact unlessFaulted_answers (require_answers fun _ => require_answers fun _ => require_answers fun _ => ⟨_, rfl⟩)

end Answers

/-- Settles O12: a word is an operation run in range, and the other inputs always answer. -/
theorem noStepStopsUnderTheInvariant : Obligations.NoStepStopsUnderTheInvariant := by
  intro s hs
  unfold step
  split
  · exact ⟨_, rfl⟩
  · next x rest _ =>
    cases x with
    | word w => exact exec_answers (hs.of_inbox rest).ranges (decode w)
    | environment => exact ⟨_, rfl⟩
    | reset => exact ⟨_, rfl⟩

/-- A run from a state that meets the invariant never stops, and keeps it. -/
theorem run_of_stateInv {s : State} (hs : StateInv s) (k : Nat) : ∃ t, run k s = .next t ∧ StateInv t := by
  induction k generalizing s with
  | zero => exact ⟨s, rfl, hs⟩
  | succ k ih =>
    obtain ⟨u, hu⟩ := noStepStopsUnderTheInvariant s hs
    rw [run_succ_of_step hu]
    exact ih (everyStepKeepsTheInvariant s u hs hu)

/-- Settles O13: a block at reset meets the invariant, and runs keep it. -/
theorem runsFromResetStayInRange : Obligations.RunsFromResetStayInRange :=
  fun _ hb hm k => run_of_stateInv (hb.stateInv hm) k

/-! ## Steps without a word, and the values at reset -/

/-- A memory built from cells reads as the first listing of each address (assumption log 4). -/
theorem Memory.read_ofCells (cells : List Host.Cell) (a : Nat) :
    (Memory.ofCells cells).read a = (cells.find? fun c => c.1 == a).map fun c => c.2 := by
  induction cells with
  | nil => rfl
  | cons c cs ih =>
    rw [show Memory.ofCells (c :: cs) = Memory.write (Memory.ofCells cs) c.1 c.2 from rfl, Memory.read_write]
    by_cases h : a = c.1
    · simp [h]
    · simp [h, Ne.symm h, ih]

/-- Settles O8: with the head of the inbox known, a step is that input's effect. -/
theorem stepWithoutAWord : Obligations.StepWithoutAWord := by
  refine ⟨fun s h => ?idle, fun s stack cells ok rest h => ?environment, fun s rest h => ?reset⟩
  case idle => simp only [step, h]
  case environment =>
    refine ⟨Memory.ofCells cells, ?_, Memory.wf_ofCells cells, Memory.read_ofCells cells⟩
    simp only [step, h, takeInput]
  case reset =>
    refine ⟨State.resetBlock { s with inbox := rest }, ?_, blockAtReset_resetBlock _, rfl, rfl, rfl, rfl, rfl, rfl, rfl,
      rfl⟩
    simp only [step, h, takeInput]

/-- Settles O14: the stores of `State.reset` are empty and its registers 0. -/
theorem resetLeavesEveryValueZero : Obligations.ResetLeavesEveryValueZero :=
  ⟨fun _ _ => rfl, fun _ _ => rfl, fun _ => ⟨rfl, rfl, rfl⟩, fun _ _ => rfl, fun _ _ => rfl, fun _ _ => rfl, rfl, rfl, rfl,
    rfl, rfl, rfl, rfl⟩

end Sys2Proof.Machine

/-! ## What an operation does to its environment (10_state.md R28, 20_memory.md R31, R32, R37)

The counterparts, for the environment, of the inversion lemmas of the block's own stores and registers. -/

namespace Sys2Proof.Machine

section Environment

variable {i : Instr} {s t : State}

theorem Effect.parameters_eq (h : Effect i s t) : t.rowBase = s.rowBase ∧ t.pageBytes = s.pageBytes := by
  cases h <;> exact ⟨rfl, rfl⟩

theorem Effect.displayOk_eq (h : Effect i s t) : t.displayOk = s.displayOk := by
  cases h <;> rfl

theorem Effect.inbox_eq (h : Effect i s t) : t.inbox = s.inbox := by
  cases h <;> rfl

/-- `WROW` pops its row byte, whether it then writes the row or faults (44_row_write.md R80). -/
theorem Effect.vmStack_cases (h : Effect i s t) :
    t.vmStack = s.vmStack ∨ i = .wrow ∧ ∃ b, s.vmStack = b :: t.vmStack := by
  cases h with
  | rowFault _ hi b _ hs => exact .inr ⟨hi, b, hs⟩
  | rowWritten _ hi b _ hs => exact .inr ⟨hi, b, hs⟩
  | _ => exact .inl rfl

/-- `PRESENT` hands over one frame, listed with the backend's answer (45_present_dispatch.md R86, R87; assumption
log 6). -/
theorem Effect.presents_cases (h : Effect i s t) :
    t.presents = s.presents ∨ i = .present ∧ t.presents = ⟨s.frame, s.displayOk⟩ :: s.presents := by
  cases h with
  | presented _ hi hd => exact .inr ⟨hi, by rw [hd]⟩
  | notTaken _ hi hd => exact .inr ⟨hi, by rw [hd]⟩
  | _ => exact .inl rfl

/-- A step takes the first input from the inbox and does what that input says. -/
theorem step_of_inbox {x : Input} {rest : List Input} (h : s.inbox = x :: rest) :
    step s = takeInput x { s with inbox := rest } := by
  simp only [step, h]

end Environment

/-- Settles O53: each clause is the inversion lemma of its part of the environment. -/
theorem theEnvironmentIsOnlyPoppedAndPresentedTo : Obligations.TheEnvironmentIsOnlyPoppedAndPresentedTo := by
  intro i s t h
  have e := effect_of_exec h
  obtain ⟨hbase, hpage⟩ := e.parameters_eq
  exact ⟨fun a => by rw [e.vmMem_eq], hbase, hpage, e.displayOk_eq, e.inbox_eq, e.vmStack_cases,
    e.presents_cases.imp_right fun ⟨hi, hp⟩ => ⟨hi, _, hp⟩⟩

/-- Settles O7: taking a word is running its decoded operation. -/
theorem stepRunsThePresentedWord : Obligations.StepRunsThePresentedWord :=
  fun _ _ _ h => step_of_inbox h

end Sys2Proof.Machine

/-! ## The table decoder reads its fields by `op` (30_encoding.md R43, R45, R47) -/

namespace Sys2Proof

section Decoding

open Sys2Proof.Claims

/-! The parts of `d`, as numbers: the decoder's cuts are the ones R45 names. -/

theorem dByte0_eq_byteOf (d : U32) : dByte0 d = byteOf 0 d := by
  apply BitVec.eq_of_toNat_eq
  rw [dByte0_toNat, byteOf, BitVec.toNat_ofNat]
  omega

theorem dByte1_eq_byteOf (d : U32) : dByte1 d = byteOf 1 d := by
  apply BitVec.eq_of_toNat_eq
  rw [dByte1_toNat, byteOf, BitVec.toNat_ofNat]
  omega

theorem dByte2_eq_byteOf (d : U32) : dByte2 d = byteOf 2 d := by
  apply BitVec.eq_of_toNat_eq
  rw [dByte2_toNat, byteOf, BitVec.toNat_ofNat]
  omega

theorem dLo_eq_halfOf (d : U32) : dLo d = halfOf 0 d := by
  apply BitVec.eq_of_toNat_eq
  rw [dLo_toNat, halfOf, BitVec.toNat_ofNat]
  omega

theorem dHi_eq_halfOf (d : U32) : dHi d = halfOf 1 d := by
  apply BitVec.eq_of_toNat_eq
  rw [dHi_toNat, halfOf, BitVec.toNat_ofNat]
  omega

theorem dBit0_eq_mod_two (d : U32) : dBit0 d = BitVec.ofNat 1 (d.toNat % 2) := by
  apply BitVec.eq_of_toNat_eq
  rw [dBit0_toNat, BitVec.toNat_ofNat]
  omega

/-- What the choice by `op` gives for the four fields is what the word is decoded to. -/
theorem readFrom_of_decodeFields {op : U8} {f : U16 → U8 → U32 → Instr} (h : ∀ a b d, decodeFields op a b d = f a b d) :
    ReadFrom op f :=
  fun a b d => (decode_tableWord op a b d).trans (h a b d)

/-! One equation per opcode of R47. -/

theorem readFrom_tnop : ReadFrom 0x00 fun _ _ _ => .tnop :=
  readFrom_of_decodeFields fun _ _ _ => rfl

theorem readFrom_palset : ReadFrom 0x10 fun a b d => .palset a b (byteOf 0 d) :=
  readFrom_of_decodeFields fun a b d => congrArg (Instr.palset a b) (dByte0_eq_byteOf d)

theorem readFrom_resolve : ReadFrom 0x11 fun a b _ => .resolve a b :=
  readFrom_of_decodeFields fun _ _ _ => rfl

theorem readFrom_tileset : ReadFrom 0x20 fun a b d => .tileset a b d :=
  readFrom_of_decodeFields fun _ _ _ => rfl

theorem readFrom_tileget : ReadFrom 0x21 fun a b _ => .tileget a b :=
  readFrom_of_decodeFields fun _ _ _ => rfl

theorem readFrom_sprseth : ReadFrom 0x30 fun a _ d => .sprseth a (byteOf 2 d) (byteOf 1 d) (byteOf 0 d) :=
  readFrom_of_decodeFields fun a b d => by
    rw [← dByte2_eq_byteOf, ← dByte1_eq_byteOf, ← dByte0_eq_byteOf]
    rfl

theorem readFrom_sprsett : ReadFrom 0x31 fun a b d => .sprsett a b (halfOf 0 d) :=
  readFrom_of_decodeFields fun a b d => congrArg (Instr.sprsett a b) (dLo_eq_halfOf d)

theorem readFrom_sprgeth : ReadFrom 0x32 fun a _ _ => .sprgeth a :=
  readFrom_of_decodeFields fun _ _ _ => rfl

theorem readFrom_sprgett : ReadFrom 0x33 fun a b _ => .sprgett a b :=
  readFrom_of_decodeFields fun _ _ _ => rfl

theorem readFrom_bgset : ReadFrom 0x40 fun a b d => .bgset a b (halfOf 0 d) :=
  readFrom_of_decodeFields fun a b d => congrArg (Instr.bgset a b) (dLo_eq_halfOf d)

theorem readFrom_bgget : ReadFrom 0x41 fun a b _ => .bgget a b :=
  readFrom_of_decodeFields fun _ _ _ => rfl

theorem readFrom_bgpal : ReadFrom 0x42 fun _ _ d => .bgpal (byteOf 0 d) :=
  readFrom_of_decodeFields fun _ _ d => congrArg Instr.bgpal (dByte0_eq_byteOf d)

theorem readFrom_scroll : ReadFrom 0x43 fun _ _ d => .scroll (halfOf 1 d) (halfOf 0 d) :=
  readFrom_of_decodeFields fun _ _ d => congrArg₂ Instr.scroll (dHi_eq_halfOf d) (dLo_eq_halfOf d)

theorem readFrom_scrollget : ReadFrom 0x44 fun _ _ _ => .scrollget :=
  readFrom_of_decodeFields fun _ _ _ => rfl

theorem readFrom_bgrow : ReadFrom 0x45 fun a _ _ => .bgrow a :=
  readFrom_of_decodeFields fun _ _ _ => rfl

theorem readFrom_sprdraw : ReadFrom 0x50 fun a _ d => .sprdraw a (halfOf 1 d) (halfOf 0 d) :=
  readFrom_of_decodeFields fun a _ d => congrArg₂ (Instr.sprdraw a) (dHi_eq_halfOf d) (dLo_eq_halfOf d)

theorem readFrom_modeset : ReadFrom 0x60 fun _ _ d => .modeset (BitVec.ofNat 1 (d.toNat % 2)) :=
  readFrom_of_decodeFields fun _ _ d => congrArg Instr.modeset (dBit0_eq_mod_two d)

theorem readFrom_rowpalset : ReadFrom 0x61 fun _ _ d => .rowpalset (byteOf 0 d) :=
  readFrom_of_decodeFields fun _ _ d => congrArg Instr.rowpalset (dByte0_eq_byteOf d)

theorem readFrom_statget : ReadFrom 0x70 fun _ _ _ => .statget :=
  readFrom_of_decodeFields fun _ _ _ => rfl

/-- An opcode R47 does not list is reserved, whatever the other fields hold (R49). -/
theorem decodeFields_of_not_mem {op : U8} (h : op ∉ definedOps) (a : U16) (b : U8) (d : U32) :
    decodeFields op a b d = .reserved op := by
  simp only [definedOps, List.mem_cons, List.not_mem_nil, or_false, not_or] at h
  simp only [decodeFields, h, if_false]

theorem not_mem_definedOps {op : U8} (h : op.toNat ∉ opcodes) : op ∉ definedOps :=
  mt (List.mem_map_of_mem (f := BitVec.toNat)) h

theorem reservedOps_count : ((List.range 256).filter fun op => !opcodes.contains op).length = 237 := by
  decide +kernel

/-- Settles O3: one equation per listed opcode, and one for all the others. -/
theorem tableDecoderFollowsTheOpcodeMap : Obligations.TableDecoderFollowsTheOpcodeMap :=
  ⟨readFrom_tnop, readFrom_palset, readFrom_resolve, readFrom_tileset, readFrom_tileget, readFrom_sprseth,
    readFrom_sprsett, readFrom_sprgeth, readFrom_sprgett, readFrom_bgset, readFrom_bgget, readFrom_bgpal, readFrom_scroll,
    readFrom_scrollget, readFrom_bgrow, readFrom_sprdraw, readFrom_modeset, readFrom_rowpalset, readFrom_statget,
    fun _ h => readFrom_of_decodeFields (decodeFields_of_not_mem (not_mem_definedOps h)),
    reservedOps_count⟩

/-! ## Every port's decoder is total (30_encoding.md R46 to R50) -/

theorem decode_signal_nop {n : U16} (h1 : n ≠ 1) (h2 : n ≠ 2) : decode (.signal n) = .nop n := by
  simp only [decode, decodeSignal, if_neg h1, if_neg h2]

/-- Settles O5. -/
theorem signalDecoderComparesAllBits : Obligations.SignalDecoderComparesAllBits :=
  ⟨rfl, rfl, fun _ h1 h2 => decode_signal_nop (ne_of_apply_ne BitVec.toNat h1) (ne_of_apply_ne BitVec.toNat h2)⟩

theorem decodeSignal_wellFormed (n : U16) : (decodeSignal n).wellFormed = true ∧ (decodeSignal n).port = .signal := by
  unfold decodeSignal
  split_ifs with h1 h2
  · exact ⟨rfl, rfl⟩
  · exact ⟨rfl, rfl⟩
  · exact ⟨(Bool.and_eq_true _ _).mpr ⟨bne_iff_ne.2 h1, bne_iff_ne.2 h2⟩, rfl⟩

theorem decodeFields_wellFormed (op : U8) (a : U16) (b : U8) (d : U32) :
    (decodeFields op a b d).wellFormed = true ∧ (decodeFields op a b d).port = .table := by
  by_cases h : op ∈ definedOps
  · fin_cases h <;> exact ⟨rfl, rfl⟩
  · rw [decodeFields_of_not_mem h]
    exact ⟨by simpa [Instr.wellFormed] using h, rfl⟩

/-- Settles O2, port by port. -/
theorem everyWordDecodesOnItsPort : Obligations.EveryWordDecodesOnItsPort := by
  intro w
  cases w with
  | signal n => exact decodeSignal_wellFormed n
  | table w => exact decodeFields_wellFormed (tableOp w) (tableA w) (tableB w) (tableD w)
  | tick q => exact ⟨rfl, rfl⟩

/-- Settles O4: a concatenation is the sum of its parts by their weights, and a number below 2^64 is the sum of its digits. -/
theorem tableWordHasItsFieldsInPlace : Obligations.TableWordHasItsFieldsInPlace := by
  refine ⟨fun op a b d => congrArg PortWord.table ?_, fun w => congrArg PortWord.table ?_⟩
  · apply BitVec.eq_of_toNat_eq
    rw [packed_toNat, BitVec.toNat_ofNat]
    omega
  · apply BitVec.eq_of_toNat_eq
    rw [packed_toNat]
    simp only [BitVec.toNat_ofNat]
    omega

/-! ## Decoding undoes encoding (30_encoding.md R51)

What an operand is packed into `d` as is what the decoder cuts out of it. -/

@[simp] theorem byteOf_zero_setWidth (v : U8) : byteOf 0 (v.setWidth 32) = v := by
  apply BitVec.eq_of_toNat_eq
  rw [byteOf, BitVec.toNat_ofNat, BitVec.toNat_setWidth]
  omega

@[simp] theorem halfOf_zero_setWidth (t : U16) : halfOf 0 (t.setWidth 32) = t := by
  apply BitVec.eq_of_toNat_eq
  rw [halfOf, BitVec.toNat_ofNat, BitVec.toNat_setWidth]
  omega

@[simp] theorem halfOf_one_append (x y : U16) : halfOf 1 (x ++ y) = x := by
  apply BitVec.eq_of_toNat_eq
  rw [halfOf, BitVec.toNat_ofNat, toNat_append_eq]
  omega

@[simp] theorem halfOf_zero_append (x y : U16) : halfOf 0 (x ++ y) = y := by
  apply BitVec.eq_of_toNat_eq
  rw [halfOf, BitVec.toNat_ofNat, toNat_append_eq]
  omega

/-- The payload of `SPRSETH` as a number: three bytes by their weights. -/
theorem headerPayload_toNat (x y z : U8) :
    (0#8 ++ x ++ y ++ z : U32).toNat = x.toNat * 65536 + y.toNat * 256 + z.toNat := by
  have h1 := toNat_append_eq (0#8 ++ x ++ y) z
  have h2 := toNat_append_eq (0#8 ++ x) y
  have h3 := toNat_append_eq 0#8 x
  simp only [BitVec.toNat_ofNat] at h3
  refine h1.trans ?_
  omega

@[simp] theorem byteOf_two_append (x y z : U8) : byteOf 2 (0#8 ++ x ++ y ++ z) = x := by
  apply BitVec.eq_of_toNat_eq
  rw [byteOf, BitVec.toNat_ofNat, headerPayload_toNat]
  omega

@[simp] theorem byteOf_one_append (x y z : U8) : byteOf 1 (0#8 ++ x ++ y ++ z) = y := by
  apply BitVec.eq_of_toNat_eq
  rw [byteOf, BitVec.toNat_ofNat, headerPayload_toNat]
  omega

@[simp] theorem byteOf_zero_append (x y z : U8) : byteOf 0 (0#8 ++ x ++ y ++ z) = z := by
  apply BitVec.eq_of_toNat_eq
  rw [byteOf, BitVec.toNat_ofNat, headerPayload_toNat]
  omega

theorem ofNat_setWidth_mod_two (m : U1) : BitVec.ofNat 1 ((m.setWidth 32).toNat % 2) = m := by
  apply BitVec.eq_of_toNat_eq
  rw [BitVec.toNat_ofNat, BitVec.toNat_setWidth]
  omega

/-- Settles O1, operation by operation: the word has the operation's opcode, whose equation gives the operation back once
each operand is read back from its field. -/
theorem decodeOfEncodeIsTheOperation : Obligations.DecodeOfEncodeIsTheOperation := by
  intro i hi
  cases i with
  | present | wrow | tick => rfl
  | nop n =>
    simp only [Instr.wellFormed, Bool.and_eq_true, bne_iff_ne] at hi
    obtain ⟨h1, h2⟩ := hi
    exact decode_signal_nop h1 h2
  | reserved op =>
    simp only [Instr.wellFormed, Bool.not_eq_true', List.contains_eq_mem, decide_eq_false_iff_not] at hi
    exact readFrom_of_decodeFields (decodeFields_of_not_mem hi) 0 0 0
  | tnop => exact readFrom_tnop 0 0 0
  | resolve p j => exact readFrom_resolve p j 0
  | tileset t r row => exact readFrom_tileset t r row
  | tileget t r => exact readFrom_tileget t r 0
  | sprgeth n => exact readFrom_sprgeth n 0 0
  | sprgett n k => exact readFrom_sprgett n k 0
  | bgget px py => exact readFrom_bgget px py 0
  | scrollget => exact readFrom_scrollget 0 0 0
  | bgrow y => exact readFrom_bgrow y 0 0
  | statget => exact readFrom_statget 0 0 0
  | palset p j v => simpa [encode] using readFrom_palset p j (v.setWidth 32)
  | sprseth n p w h => simpa [encode] using readFrom_sprseth n 0 (0#8 ++ p ++ w ++ h)
  | sprsett n k t => simpa [encode] using readFrom_sprsett n k (t.setWidth 32)
  | bgset px py t => simpa [encode] using readFrom_bgset px py (t.setWidth 32)
  | bgpal p => simpa [encode] using readFrom_bgpal 0 0 (p.setWidth 32)
  | scroll x y => simpa [encode] using readFrom_scroll 0 0 (x ++ y)
  | sprdraw n x y => simpa [encode] using readFrom_sprdraw n 0 (x ++ y)
  | modeset m => exact (readFrom_modeset 0 0 _).trans (congrArg Instr.modeset (ofNat_setWidth_mod_two m))
  | rowpalset p => simpa [encode] using readFrom_rowpalset 0 0 (p.setWidth 32)

end Decoding

end Sys2Proof

/-! ## One answer per word (30_encoding.md R41) -/

namespace Sys2Proof.Machine

section OneAnswer

open Sys2Proof.Claims

variable {i : Instr} {s t : State}

/-- Every port but the tick port can answer a fault. -/
theorem answersOf_err {p : Port} (hp : p ≠ .tick) (c : U8) : answersOf p (.err c) := by
  cases p with
  | signal | table => exact .inr ⟨c, rfl⟩
  | tick => exact absurd rfl hp

theorem port_of_reads (h : reads i = true) : i.port = .table := by
  cases i with
  | resolve | tileget | sprgeth | sprgett | bgget | scrollget | statget => rfl
  | _ => cases h

/-- The answer `r` suits the operation `i`: it is one of its port's, with `rdata` 0 where nothing is read. -/
def Suits (i : Instr) (r : Response) : Prop :=
  answersOf i.port r ∧ (reads i = false → ∀ v, r = .okData v → v = 0)

theorem suits_err (hp : i.port ≠ .tick) (c : U8) : Suits i (.err c) :=
  ⟨answersOf_err hp c, nofun⟩

theorem suits_ok (hp : i.port = .signal) : Suits i .ok :=
  ⟨hp ▸ .inl rfl, nofun⟩

theorem suits_haltReq (hp : i.port = .tick) (q : U1) : Suits i (.haltReq q) :=
  ⟨hp ▸ ⟨q, rfl⟩, nofun⟩

theorem suits_okData_zero (hp : i.port = .table) : Suits i (.okData 0) :=
  ⟨hp ▸ .inl ⟨0, rfl⟩, fun _ _ hv => (Response.okData.inj hv).symm⟩

theorem suits_okData_of_reads (h : reads i = true) (v : U32) : Suits i (.okData v) :=
  ⟨port_of_reads h ▸ .inl ⟨v, rfl⟩, fun hn => absurd (h.symm.trans hn) nofun⟩

/-- Every effect answers once, with an answer that suits the operation. -/
theorem Effect.responses_eq (h : Effect i s t) : ∃ r, t.responses = r :: s.responses ∧ Suits i r := by
  cases h with
  | refused _ _ hp => exact ⟨_, rfl, suits_err hp _⟩
  | raised _ c _ hp => exact ⟨_, rfl, suits_err hp _⟩
  | tickQuiet q hi | tickHalt q hi => exact ⟨_, rfl, suits_haltReq (hi ▸ rfl) _⟩
  | presented _ hi | rowWritten _ hi | nop _ _ hi => exact ⟨_, rfl, suits_ok (hi ▸ rfl)⟩
  | notTaken _ hi | stackEmpty _ hi | rowFault _ hi => exact ⟨_, rfl, suits_err (hi ▸ nofun) _⟩
  | status hi => exact ⟨_, rfl, suits_okData_of_reads (hi ▸ rfl) _⟩
  | answered _ hi v => exact ⟨_, rfl, suits_okData_of_reads hi v⟩
  | tnop _ hi | palset _ _ _ _ hi | tileset _ _ _ _ hi | sprseth _ _ _ _ _ hi | sprsett _ _ _ _ hi | bgset _ _ _ _ hi
  | bgpal _ _ _ hi | scroll _ _ _ hi | bgrow _ _ hi | sprdraw _ _ _ _ hi | modeset _ _ hi | rowpalset _ _ _ hi =>
    exact ⟨_, rfl, suits_okData_zero (hi ▸ rfl)⟩

end OneAnswer

/-- Settles O9: the answer is that of the operation's effect. -/
theorem everyWordIsAnsweredOnce : Obligations.EveryWordIsAnsweredOnce := by
  intro i s t h
  have e := effect_of_exec h
  obtain ⟨r, hr, hport, hdata⟩ := e.responses_eq
  exact ⟨r, hr, hport, hdata, e.inbox_eq⟩

/-- Settles O51: a running block meets the guard, and the operation is the fault. -/
theorem reservedWordRaisesProtocolViolation : Obligations.ReservedWordRaisesProtocolViolation :=
  fun _ s h => unlessFaulted_running h (raiseFault .pvReservedOp s)

/-! ## Presented words, run one after the other (30_encoding.md R52) -/

section Presented

open Sys2Proof.Claims

variable {i : Instr} {s u : State} {ops : List Instr} {rest : List Input}

/-- The first of the presented words is run as its operation, and the others are presented to the state it leaves. -/
theorem run_succ_of_presents (hp : Presents s (i :: ops) rest) (hi : i.wellFormed = true)
    (he : ∀ q, exec i { s with inbox := q } = .next { u with inbox := q }) (k : Nat) :
    ∃ q, run (k + 1) s = run k { u with inbox := q } ∧ Presents { u with inbox := q } ops rest := by
  refine ⟨_, run_succ_of_step ?_ k, rfl⟩
  rw [step_of_inbox hp, takeInput, decodeOfEncodeIsTheOperation i hi]
  exact he _

/-- One more `OK(0)` below `k` of them. -/
theorem replicate_append_cons {α : Type} (k : Nat) (r : α) (rs : List α) :
    List.replicate k r ++ r :: rs = List.replicate (k + 1) r ++ rs := by
  rw [List.replicate_succ', List.append_assoc, List.singleton_append]

/-! ### `SETTILE` -/

theorem exec_tileset {t : U16} {r : U8} {k : Nat} (hs : s.fcause = 0) (ht : t.toNat < 6144) (hr : r.toNat = k)
    (hk : k < 8) (row : U32) :
    exec (.tileset t r row) s = .next ((s.setTileRow t.toNat k row).answer (.okData 0)) := by
  subst hr
  exact (unlessFaulted_running hs _).trans <| (require_pos ht _ s _).trans (require_pos hk _ s _)

/-- Consecutive rows of a tile, from row `k`, presented as `TILESET` words: the tile store gets their writes, in order. -/
theorem run_tileset_rows {t : U16} (ht : t.toNat < 6144) (rows : List U32) (k : Nat) (s : State)
    (hp : Presents s ((rows.zipIdx k).map fun x => .tileset t (BitVec.ofNat 8 x.2) x.1) rest)
    (hs : s.fcause = 0) (hk : k + rows.length ≤ 8) :
    run rows.length s = .next { s with
      tile := s.tile.writeAll ((rows.zipIdx k).map fun x => (tileKey t.toNat x.2, x.1))
      inbox := rest
      responses := List.replicate rows.length (.okData 0) ++ s.responses } := by
  induction rows generalizing k s with
  | nil =>
    obtain rfl : s.inbox = rest := hp
    rfl
  | cons row rows ih =>
    rw [List.length_cons] at hk ⊢
    have hr : (BitVec.ofNat 8 k).toNat = k := by rw [BitVec.toNat_ofNat]; omega
    obtain ⟨q, hrun, hq⟩ := run_succ_of_presents (u := (s.setTileRow t.toNat k row).answer (.okData 0)) hp rfl
      (fun q => exec_tileset (s := { s with inbox := q }) hs ht hr (by omega) row) rows.length
    rw [hrun, ih (k + 1) _ hq hs (by omega), ← replicate_append_cons]
    rfl

/-- Rows written at consecutive places of one tile: each is read back there, and nothing else has changed. -/
theorem tileRow_writeAll (st : Store 32) (rows : Vector U32 8) {t n r : Nat} (hr : r < 8) :
    (st.writeAll (rows.toList.zipIdx.map fun x => (tileKey t x.2, x.1))).read (tileKey n r)
      = if n = t then rows[r] else st.read (tileKey n r) := by
  have hrow : ∀ x ∈ rows.toList.zipIdx, ∃ h : x.2 < 8, x.1 = rows[x.2] := by
    intro x hx
    obtain ⟨_, hlt, heq⟩ := List.mem_zipIdx hx
    exact ⟨by simpa using hlt, by simpa using heq⟩
  have key : ∀ m q, q < 8 → tileKey m q = tileKey n r → m = n ∧ q = r := by
    intro m q hq h
    simp only [tileKey, Config.tileEdge] at h
    omega
  by_cases hn : n = t
  · subst hn
    rw [if_pos rfl]
    refine Store.read_writeAll_of_mem st _ (p := (tileKey n r, rows[r])) (List.mem_map.2 ⟨(rows[r], r), ?_, rfl⟩) ?_
    · exact List.mem_zipIdx_iff_getElem?.2 (by simp [hr])
    · intro p hp hpk
      obtain ⟨x, hx, rfl⟩ := List.mem_map.1 hp
      obtain ⟨hlt, heq⟩ := hrow x hx
      obtain ⟨-, rfl⟩ := key _ _ hlt hpk
      exact heq
  · rw [if_neg hn]
    refine Store.read_writeAll_of_not_mem st _ fun p hp hpk => hn ?_
    obtain ⟨x, hx, rfl⟩ := List.mem_map.1 hp
    obtain ⟨hlt, -⟩ := hrow x hx
    obtain ⟨rfl, -⟩ := key _ _ hlt hpk
    rfl

/-! ### `BGFRAME` -/

/-- The colour converter as a number (40_palette.md R53): no field is lost, since 7 × 36 and 3 × 85 fit a byte. -/
theorem rgb332_toNat (b : U8) : (rgb332 b).toNat = rgbNat b := by
  have htop : b.toNat / 32 < 8 := by omega
  have hred : b.toNat / 32 % 8 * 36 % 256 = b.toNat / 32 * 36 := by
    rw [Nat.mod_eq_of_lt htop, Nat.mod_eq_of_lt (by omega)]
  have hgreen : b.toNat / 4 % 8 * 36 % 256 = b.toNat / 4 % 8 * 36 := by omega
  have hblue : b.toNat % 4 * 85 % 256 = b.toNat % 4 * 85 := by omega
  unfold rgb332 rgbNat
  rw [toNat_append_eq, toNat_append_eq]
  simp only [BitVec.toNat_ofNat, BitVec.extractLsb'_toNat, Nat.shiftRight_eq_div_pow, Nat.reducePow, Nat.div_one,
    Config.rStep, Config.gStep, Config.bStep, hred, hgreen, hblue]
  omega

/-- In range, a viewport pixel of the background has the colour R69 and R75 give it. -/
theorem bgRgb_of_ranges (hr : Ranges s) {sx sy : Nat} (hx : sx < 192) (hy : sy < 128) :
    ∃ c, s.bgRgb sx sy = some c ∧ c.toNat = colourNat s s.bgp.toNat (bgIndexNat s sx sy) := by
  rw [State.bgRgb, bgPx_of_ranges hr hx hy]
  refine ⟨_, rfl, ?_⟩
  rw [State.palRgb, rgb332_toNat, nibble_toNat]
  rfl

/-- In range, the 192 pixels of a background row exist, each of the colour the background shows there (R75). -/
theorem bgRow_of_ranges (hr : Ranges s) {y : Nat} (hy : y < 128) :
    ∃ pxs, collect (fun sx => s.bgRgb sx y) (List.range 192) = some pxs ∧ ∃ hl : pxs.length = 192,
      ∀ sx (hx : sx < 192), pxs[sx].toNat = colourNat s s.bgp.toNat (bgIndexNat s sx y) := by
  have hsome : ∀ sx ∈ List.range 192, (s.bgRgb sx y).isSome = true := by
    intro sx hsx
    obtain ⟨c, hc, -⟩ := bgRgb_of_ranges hr (List.mem_range.1 hsx) hy
    exact Option.isSome_of_eq_some hc
  obtain ⟨pxs, hpxs⟩ := collect_isSome hsome
  have hl : pxs.length = 192 := by simpa using collect_length hpxs
  refine ⟨pxs, hpxs, hl, fun sx hx => ?_⟩
  obtain ⟨c, hc, hcolour⟩ := bgRgb_of_ranges hr hx hy
  have hget := collect_getElem hpxs (hl ▸ hx)
  rw [List.getElem_range, hc] at hget
  exact Option.some.inj hget ▸ hcolour

theorem exec_bgrow {y : U16} {r : Nat} {pxs : List U24} (hs : s.fcause = 0) (hy : y.toNat = r) (hr : r < 128)
    (hpxs : collect (fun sx => s.bgRgb sx r) (List.range 192) = some pxs) :
    exec (.bgrow y) s = .next ((s.setFbRow r pxs).answer (.okData 0)) := by
  subst hy
  refine (unlessFaulted_running hs _).trans <| (require_pos hr _ s _).trans ?_
  rw [Config.viewW, hpxs]

/-- Consecutive rows, from row `y`, presented as `BGROW` words: those rows are rendered, the rows outside stay. -/
theorem run_bgrow_rows (k y : Nat) (s : State)
    (hp : Presents s ((List.range' y k).map fun y => .bgrow (BitVec.ofNat 16 y)) rest)
    (hs : s.fcause = 0) (hr : Ranges s) (hy : y + k ≤ 128) :
    ∃ fb, run k s = .next { s with
        fb := fb, inbox := rest, responses := List.replicate k (.okData 0) ++ s.responses } ∧
      ∀ sx sy, sx < 192 → (fb.read (fbKey sx sy)).toNat =
        if y ≤ sy ∧ sy < y + k then colourNat s s.bgp.toNat (bgIndexNat s sx sy) else (s.fbAt sx sy).toNat := by
  induction k generalizing y s with
  | zero =>
    obtain rfl : s.inbox = rest := hp
    refine ⟨s.fb, rfl, fun sx sy _ => ?_⟩
    rw [if_neg (by omega)]
    rfl
  | succ k ih =>
    obtain ⟨pxs, hpxs, hl, hcolour⟩ := bgRow_of_ranges hr (show y < 128 by omega)
    have hyn : (BitVec.ofNat 16 y).toNat = y := by rw [BitVec.toNat_ofNat]; omega
    obtain ⟨q, hrun, hq⟩ := run_succ_of_presents (u := (s.setFbRow y pxs).answer (.okData 0)) hp rfl
      (fun q => exec_bgrow (s := { s with inbox := q }) hs hyn (by omega) hpxs) k
    obtain ⟨fb, hruns, hfb⟩ := ih (y + 1) _ hq hs { hr with } (by omega)
    refine ⟨fb, ?_, fun sx sy hx => ?_⟩
    · rw [hrun, hruns, ← replicate_append_cons]
      rfl
    · rw [hfb sx sy hx]
      by_cases hlater : y + 1 ≤ sy ∧ sy < y + 1 + k
      · rw [if_pos hlater, if_pos (by omega)]
        rfl
      · rw [if_neg hlater]
        refine (congrArg BitVec.toNat (fbAt_setFbRow s hl hx)).trans ?_
        by_cases hsy : sy = y
        · subst hsy
          rw [if_pos rfl, if_pos (by omega)]
          exact hcolour sx hx
        · rw [if_neg hsy, if_neg (by omega)]

end Presented

/-- Settles O36: the eight words write the eight rows of the tile, in order. -/
theorem settileWritesAWholeTile : Obligations.SettileWritesAWholeTile := by
  intro t rows s rest hs ht hp
  have hrun := run_tileset_rows ht rows.toList 0 s hp hs (by simp)
  rw [Vector.length_toList] at hrun
  exact ⟨_, hrun, rfl, fun n r _ hr => tileRow_writeAll s.tile rows hr⟩

/-- Settles O35: the 128 words render the rows from 0 on, which are all the rows of the viewport. -/
theorem bgframeRendersTheWholeViewport : Obligations.BgframeRendersTheWholeViewport := by
  intro s rest hs hr hp
  rw [bgFrameOps, List.range_eq_range'] at hp
  obtain ⟨fb, hrun, hfb⟩ := run_bgrow_rows 128 0 s hp hs hr (by omega)
  refine ⟨_, hrun, rfl, fun sx sy hx hy => ?_⟩
  exact (hfb sx sy hx).trans (if_pos ⟨Nat.zero_le sy, by omega⟩)

end Sys2Proof.Machine

/-! ## Palettes and colours (40_palette.md) -/

namespace Sys2Proof.Machine

section Colours

open Sys2Proof.Claims

variable {s : State} {p : U16} {i : U8}

/-- Three bytes packed into one number, and cut out of it again. -/
theorem packedBytes_cut {x y z : Nat} (hx : x < 256) (hy : y < 256) (hz : z < 256) :
    (x * 65536 + y * 256 + z) / 65536 % 256 = x ∧ (x * 65536 + y * 256 + z) / 256 % 256 = y ∧
      (x * 65536 + y * 256 + z) % 256 = z := by
  omega

/-- Settles O19: the three products fit a byte each, so they are the bytes of the number R53 gives. -/
theorem colourConverterScalesTheThreeFields : Obligations.ColourConverterScalesTheThreeFields := by
  intro b
  have hrgb := rgb332_toNat b
  obtain ⟨hred, hgreen, hblue⟩ := packedBytes_cut (x := b.toNat / 32 * 36) (y := b.toNat / 4 % 8 * 36)
    (z := b.toNat % 4 * 85) (by omega) (by omega) (by omega)
  refine ⟨hrgb, ?_⟩
  simp only [BitVec.extractLsb'_toNat, Nat.shiftRight_eq_div_pow, Nat.reducePow, Nat.div_one, hrgb]
  exact ⟨hred, hgreen, hblue⟩

/-- A colour byte accepted in the block's mode becomes the colour of R55. -/
theorem resolvePx_of_accepted (s : State) (p : Nat) (hi : s.mode = 0 → i.toNat < 16) :
    ∃ c, s.resolvePx p i = some c ∧ c.toNat = if s.mode = 0 then colourNat s p i.toNat else rgbNat i := by
  rw [resolvePx_eq]
  by_cases hm : s.mode = 0
  · rw [if_pos hm, if_pos (hi hm), if_pos hm]
    exact ⟨_, rfl, rgb332_toNat _⟩
  · rw [if_neg hm, if_neg hm]
    exact ⟨_, rfl, rgb332_toNat i⟩

/-- In indexed mode a byte of 16 or more is no colour index. -/
theorem resolvePx_of_indexed_ge (p : Nat) (hm : s.mode = 0) (hi : 16 ≤ i.toNat) : s.resolvePx p i = none := by
  rw [resolvePx_eq, if_pos hm, if_neg (Nat.not_lt.2 hi)]

/-- Past its check of the palette, `RESOLVE` is its look-up. -/
theorem exec_resolve (hs : s.fcause = 0) (hp : p.toNat < 16) :
    exec (.resolve p i) s = (s.resolvePx p.toNat i).elim (raiseFault .oorColour s)
      fun c => .next (s.answer (.okData (c.setWidth 32))) := by
  refine (unlessFaulted_running hs _).trans <| (require_pos hp _ s _).trans ?_
  cases s.resolvePx p.toNat i <;> rfl

end Colours

/-- Settles O20: on a running block, `PALSET` passes its two checks in order, or one of them is its fault. -/
theorem palsetWritesOneEntry : Obligations.PalsetWritesOneEntry := by
  refine ⟨readFrom_palset, fun p i v s hs => ⟨fun hp hi => ?_, fun hp => ?_, fun hp hi => ?_⟩⟩
  · refine ⟨(s.setPal p.toNat i.toNat v).answer (.okData 0), ?_, rfl, fun q j _ hj => palAt_setPal s hi hj v⟩
    exact (unlessFaulted_running hs _).trans <| (require_pos hp _ s _).trans (require_pos hi _ s _)
  · exact (unlessFaulted_running hs _).trans (require_neg (Nat.not_lt.2 hp) _ s _)
  · exact (unlessFaulted_running hs _).trans <| (require_pos hp _ s _).trans (require_neg (Nat.not_lt.2 hi) _ s _)

/-- Settles O21: `RESOLVE` is its look-up, which fails only on an index of 16 or more in indexed mode. -/
theorem resolveAnswersTheColour : Obligations.ResolveAnswersTheColour := by
  refine ⟨readFrom_resolve, fun p i s hs => ⟨fun hp hi => ?_, fun hp => ?_, fun hp hm hi => ?_⟩⟩
  · obtain ⟨c, hc, hcolour⟩ := resolvePx_of_accepted s p.toNat hi
    refine ⟨c.setWidth 32, (exec_resolve hs hp).trans (by rw [hc]; rfl), ?_⟩
    rw [BitVec.toNat_setWidth_of_le (by omega), hcolour]
  · exact (unlessFaulted_running hs _).trans (require_neg (Nat.not_lt.2 hp) _ s _)
  · exact (exec_resolve hs hp).trans (by rw [resolvePx_of_indexed_ge p.toNat hm hi]; rfl)

/-! ### A row write that completes (44_row_write.md R79, R80) -/

section RowWrite

open Sys2Proof.Claims

variable {s : State} {bytes : Nat → U8}

/-- The row source gives the 192 bytes, in order. -/
theorem memRead_of_rowBytes (h : RowBytes s bytes) : memRead s s.rowBase 192 = some ((List.range 192).map bytes) := by
  obtain ⟨hpage, hbytes⟩ := h
  refine memRead_eq_some.2 ⟨hpage, by simp, fun c hc => ?_⟩
  have hc' : c < 192 := by simpa using hc
  simpa using hbytes c hc'

/-- Where every byte of the row is accepted, the line is made of their colours. -/
theorem rowLine_of_accepted (hb : s.mode = 0 → ∀ c, c < 192 → (bytes c).toNat < 16) :
    ∃ pxs, collect (s.resolvePx s.rowpal.toNat) ((List.range 192).map bytes) = some pxs ∧
      ∃ hl : pxs.length = 192, ∀ c (hc : c < 192), pxs[c].toNat = rowColourNat s (bytes c) := by
  have hcolour : ∀ c, c < 192 → ∃ v, s.resolvePx s.rowpal.toNat (bytes c) = some v ∧ v.toNat = rowColourNat s (bytes c) :=
    fun c hc => resolvePx_of_accepted s s.rowpal.toNat fun hm => hb hm c hc
  obtain ⟨pxs, hline⟩ : ∃ pxs, collect (s.resolvePx s.rowpal.toNat) ((List.range 192).map bytes) = some pxs := by
    refine collect_isSome fun b hmem => ?_
    obtain ⟨c, hc, rfl⟩ := List.mem_map.1 hmem
    obtain ⟨v, hv, -⟩ := hcolour c (List.mem_range.1 hc)
    exact Option.isSome_of_eq_some hv
  have hl : pxs.length = 192 := by simpa using collect_length hline
  refine ⟨pxs, hline, hl, fun c hc => ?_⟩
  obtain ⟨v, hv, hvc⟩ := hcolour c hc
  have hget := collect_getElem hline (hl ▸ hc)
  rw [List.getElem_map, List.getElem_range, hv] at hget
  rwa [← Option.some.inj hget]

/-- A row of the viewport whose line has been resolved is written. -/
theorem writeRow_of_line {row : U8} {bs : List U8} {line : List U24} (hrow : row.toNat < 128)
    (hline : collect (s.resolvePx s.rowpal.toNat) bs = some line) :
    writeRow row bs s = .next ((s.setFbRow row.toNat line).answer .ok) := by
  refine (require_pos hrow _ s _).trans ?_
  rw [hline]

/-- `WROW` completes where a row index below 128 can be popped and every byte of the row is there and accepted. -/
theorem exec_wrow {row : U8} {rest : List U8} {line : List U24} (hs : s.fcause = 0) (hpop : s.vmStack = row :: rest)
    (hmem : RowBytes s bytes) (hrow : row.toNat < 128)
    (hline : collect (s.resolvePx s.rowpal.toNat) ((List.range 192).map bytes) = some line) :
    exec .wrow s = .next ((State.setFbRow { s with vmStack := rest } row.toNat line).answer .ok) := by
  have hread : memRead { s with vmStack := rest } s.rowBase 192 = some ((List.range 192).map bytes) :=
    memRead_of_rowBytes hmem
  refine (unlessFaulted_running hs _).trans ?_
  rw [stackPop_eq_some.2 ⟨rest, hpop, rfl⟩]
  simp only [Config.viewW, hread]
  exact writeRow_of_line hrow hline

end RowWrite

/-- Settles O22: `RESOLVE` and the line of a row write look the bytes up in the same palette. -/
theorem paletteRoundTrip : Obligations.PaletteRoundTrip := by
  refine fun p s hs hm hp => ⟨fun i hi => ?_, fun row rest bytes hrp hpop hmem hrow hlt hbytes => ?_⟩
  · obtain ⟨v, hexec, hv⟩ := (resolveAnswersTheColour.2 p i s hs).1 hp fun _ => hi
    exact ⟨v, hexec, hv.trans (if_pos hm)⟩
  · obtain ⟨line, hline, hl, hcolour⟩ := rowLine_of_accepted (s := s) fun _ => hlt
    refine ⟨_, exec_wrow hs hpop hmem hrow hline, fun c hc => ?_⟩
    have hpixel := fbAt_setFbRow { s with vmStack := rest } (y := row.toNat) (sy := row.toNat) hl
      (show c < 192 by omega)
    rw [if_pos rfl] at hpixel
    refine (congrArg BitVec.toNat hpixel).trans ?_
    rw [hcolour c (by omega), Claims.rowColourNat, if_pos hm, hrp, hbytes c hc]

/-! ### The policy of row writes, which tile draws do not read (R54) -/

/-- Another mode and another row palette. -/
def State.withRowPolicy (s : State) (m : U1) (q : U4) : State := { s with mode := m, rowpal := q }

section RowPolicy

variable {s t : State} {act act' : Out}

@[simp] theorem State.withRowPolicy_bgRgb (s : State) (m : U1) (q : U4) : (s.withRowPolicy m q).bgRgb = s.bgRgb := rfl

@[simp] theorem State.withRowPolicy_sprW (s : State) (m : U1) (q : U4) : (s.withRowPolicy m q).sprW = s.sprW := rfl

@[simp] theorem State.withRowPolicy_sprH (s : State) (m : U1) (q : U4) : (s.withRowPolicy m q).sprH = s.sprH := rfl

@[simp] theorem State.withRowPolicy_drawPixel (s : State) (m : U1) (q : U4) :
    (s.withRowPolicy m q).drawPixel = s.drawPixel := rfl

/-- The guard looks at no policy, and neither does its refusal. -/
theorem unlessFaulted_withRowPolicy {m : U1} {q : U4} (h : unlessFaulted s act = .next t)
    (hact : act = .next t → act' = .next (t.withRowPolicy m q)) :
    unlessFaulted (s.withRowPolicy m q) act' = .next (t.withRowPolicy m q) := by
  obtain ⟨hs, h⟩ | ⟨hs, rfl⟩ := unlessFaulted_next h
  · exact (unlessFaulted_running (s := s.withRowPolicy m q) hs act').trans (hact h)
  · exact unlessFaulted_faulted (s := s.withRowPolicy m q) hs act'

/-- A check of an operand looks at no policy, and neither does its fault. -/
theorem require_withRowPolicy {m : U1} {q : U4} {ok : Bool} {c : Cause} (h : require ok c s act = .next t)
    (hact : act = .next t → act' = .next (t.withRowPolicy m q)) :
    require ok c (s.withRowPolicy m q) act' = .next (t.withRowPolicy m q) := by
  obtain ⟨rfl, h⟩ | ⟨rfl, rfl⟩ := require_next h
  · exact hact h
  · rfl

theorem execBgrow_withRowPolicy {y : U16} (m : U1) (q : U4) (h : execBgrow y s = .next t) :
    execBgrow y (s.withRowPolicy m q) = .next (t.withRowPolicy m q) := by
  refine unlessFaulted_withRowPolicy h fun h => require_withRowPolicy h fun h => ?_
  rw [State.withRowPolicy_bgRgb]
  cases hl : collect (fun sx => s.bgRgb sx y.toNat) (List.range Config.viewW) with
  | none =>
    simp only [hl] at h
    cases h
  | some line =>
    simp only [hl] at h ⊢
    cases h
    rfl

theorem execSprdraw_withRowPolicy {sid x y : U16} (m : U1) (q : U4) (h : execSprdraw sid x y s = .next t) :
    execSprdraw sid x y (s.withRowPolicy m q) = .next (t.withRowPolicy m q) := by
  refine unlessFaulted_withRowPolicy h fun h => require_withRowPolicy h fun h => ?_
  rw [State.withRowPolicy_drawPixel, State.withRowPolicy_sprW, State.withRowPolicy_sprH]
  cases hl : collect (s.drawPixel sid.toNat (sint16 x) (sint16 y))
      (spritePixels (s.sprW.read sid.toNat).toNat (s.sprH.read sid.toNat).toNat) with
  | none =>
    simp only [hl] at h
    cases h
  | some ps =>
    simp only [hl] at h ⊢
    cases h
    rfl

end RowPolicy

/-- Settles O38: guard, check and pixels of the two draws read neither register. -/
theorem tileDrawsIgnoreModeAndRowPalette : Obligations.TileDrawsIgnoreModeAndRowPalette := by
  rintro i s t m q (⟨y, rfl⟩ | ⟨sid, x, y, rfl⟩) h
  · exact execBgrow_withRowPolicy m q h
  · exact execSprdraw_withRowPolicy m q h

end Sys2Proof.Machine

/-! ## Tile store and sprite table (41_tile_sprite_store.md) -/

namespace Sys2Proof.Machine

section TileSprite

variable {s : State} {sid t : U16} {k r pal : U8}

/-! The first check of an operation, on a running block. -/

theorem checked_pos {P : Prop} [Decidable P] (hs : s.fcause = 0) (h : P) (c : Cause) (act : Out) :
    unlessFaulted s (require (decide P) c s act) = act :=
  (unlessFaulted_running hs _).trans (require_pos h c s act)

theorem checked_neg {P : Prop} [Decidable P] (hs : s.fcause = 0) (h : ¬P) (c : Cause) (act : Out) :
    unlessFaulted s (require (decide P) c s act) = raiseFault c s :=
  (unlessFaulted_running hs _).trans (require_neg h c s act)

/-- The pixels of a row just written are the hexadecimal digits of its word, from the left (R59). -/
theorem tilePx_setTileRow (s : State) {n q c : Nat} (hn : n < 6144) (hq : q < 8) (hc : c < 8) (row : U32) :
    (s.setTileRow n q row).tilePx n q c = some (nibble row c) := by
  rw [tilePx_of_lt _ hn hq hc, tileRow_setTileRow s hq hq, if_pos ⟨rfl, rfl⟩]

/-- A tile id read from a slot is the id last written there, whole: it fits the slot's 13 bits (R63). -/
theorem sprTileAt_setSprTile_toNat (s : State) {n q m j : Nat} (hq : q < 32) (hj : j < 32) (ht : t.toNat < 6144) :
    ((s.setSprTile n q (t.setWidth 13)).sprTileAt m j).toNat
      = if m = n ∧ j = q then t.toNat else (s.sprTileAt m j).toNat := by
  have hfits : (t.setWidth 13).toNat = t.toNat := by
    rw [BitVec.toNat_setWidth, Nat.mod_eq_of_lt (by omega)]
  rw [sprTileAt_setSprTile s hq hj, apply_ite BitVec.toNat, hfits]

/-- A header's palette reads as the one last written, whole: it fits the header's 4 bits (R62). -/
theorem sprPal_setSprHeader_toNat (s : State) (n m : Nat) (hp : pal.toNat < 16) (w h : U8) :
    ((s.setSprHeader n (pal.setWidth 4) w h).sprPal.read m).toNat
      = if m = n then pal.toNat else (s.sprPal.read m).toNat := by
  have hfits : (pal.setWidth 4).toNat = pal.toNat := by
    rw [BitVec.toNat_setWidth, Nat.mod_eq_of_lt hp]
  rw [State.setSprHeader_sprPal, Store.read_write, apply_ite BitVec.toNat, hfits]

/-- Past its checks of the sprite and the palette, `SPRSETH` is its check of the dimensions. -/
theorem exec_sprseth (hs : s.fcause = 0) (hn : sid.toNat < 256) (hp : pal.toNat < 16) (w h : U8) :
    exec (.sprseth sid pal w h) s = require (spriteDimsOk w h) .oorDim s
      (.next ((s.setSprHeader sid.toNat (pal.setWidth 4) w h).answer (.okData 0))) :=
  (checked_pos hs hn _ _).trans (require_pos hp _ s _)

/-- Past its checks of the sprite and the slot, `SPRSETT` is its check of the tile id. -/
theorem exec_sprsett (hs : s.fcause = 0) (hn : sid.toNat < 256) (hk : k.toNat < 32) (t : U16) :
    exec (.sprsett sid k t) s = require (decide (t.toNat < 6144)) .oorTile s
      (.next ((s.setSprTile sid.toNat k.toNat (t.setWidth 13)).answer (.okData 0))) :=
  (checked_pos hs hn _ _).trans (require_pos hk _ s _)

end TileSprite

/-- Settles O23: on a running block, `TILESET` passes its two checks in order, or one of them is its fault. -/
theorem tilesetWritesOneRow : Obligations.TilesetWritesOneRow := by
  refine ⟨readFrom_tileset, fun t r row s hs => ⟨fun ht hr => ?written, fun ht => ?badTile, fun ht hr => ?badRow⟩⟩
  case written =>
    refine ⟨_, exec_tileset hs ht rfl hr row, rfl, fun n q _ hq => tileRow_setTileRow s hr hq row, fun c hc => ?_⟩
    exact ⟨_, tilePx_setTileRow s ht hr hc row, nibble_toNat row c⟩
  case badTile => exact checked_neg hs (Nat.not_lt.2 ht) _ _
  case badRow => exact (checked_pos hs ht _ _).trans (require_neg (Nat.not_lt.2 hr) _ s _)

/-- Settles O25: the product of two dimensions is taken as a natural number, so the last check is exact. -/
theorem sprsethWritesTheHeader : Obligations.SprsethWritesTheHeader := by
  refine ⟨readFrom_sprseth, fun sid pal w h s hs =>
    ⟨fun hn hp hw hh hwh => ?written, fun hn => ?badSprite, fun hn hp => ?badPalette, fun hn hp hdim => ?badDim⟩⟩
  case written =>
    have hdim : spriteDimsOk w h = true := spriteDimsOk_iff.2 ⟨hw, hh, hwh⟩
    refine ⟨(s.setSprHeader sid.toNat (pal.setWidth 4) w h).answer (.okData 0), ?_, rfl, fun n _ => ?_⟩
    · rw [exec_sprseth hs hn hp, hdim, require_true]
    · exact ⟨sprPal_setSprHeader_toNat s sid.toNat n hp w h, Store.read_write _ _ _ _, Store.read_write _ _ _ _⟩
  case badSprite => exact checked_neg hs (Nat.not_lt.2 hn) _ _
  case badPalette => exact (checked_pos hs hn _ _).trans (require_neg (Nat.not_lt.2 hp) _ s _)
  case badDim =>
    have hbad : spriteDimsOk w h = false := by
      rw [Bool.eq_false_iff, ne_eq, spriteDimsOk_iff]
      omega
    rw [Claims.Raises, exec_sprseth hs hn hp, hbad]
    rfl

/-- Settles O26: on a running block, `SPRSETT` passes its three checks in order, or one of them is its fault. -/
theorem sprsettWritesOneSlot : Obligations.SprsettWritesOneSlot := by
  refine ⟨readFrom_sprsett, fun sid k t s hs =>
    ⟨fun hn hk ht => ?written, fun hn => ?badSprite, fun hn hk => ?badSlot, fun hn hk ht => ?badTile⟩⟩
  case written =>
    exact ⟨_, (exec_sprsett hs hn hk t).trans (require_pos ht _ s _), rfl,
      fun n j _ hj => sprTileAt_setSprTile_toNat s hk hj ht⟩
  case badSprite => exact checked_neg hs (Nat.not_lt.2 hn) _ _
  case badSlot => exact (checked_pos hs hn _ _).trans (require_neg (Nat.not_lt.2 hk) _ s _)
  case badTile => exact (exec_sprsett hs hn hk t).trans (require_neg (Nat.not_lt.2 ht) _ s _)

/-- Settles O24: past its two checks, `TILEGET` only answers. -/
theorem tilegetAnswersTheRow : Obligations.TilegetAnswersTheRow := by
  refine ⟨readFrom_tileget, fun t r s hs => ⟨fun ht hr => ?answered, fun ht => ?badTile, fun ht hr => ?badRow⟩⟩
  case answered => exact (checked_pos hs ht _ _).trans (require_pos hr _ s _)
  case badTile => exact checked_neg hs (Nat.not_lt.2 ht) _ _
  case badRow => exact (checked_pos hs ht _ _).trans (require_neg (Nat.not_lt.2 hr) _ s _)

/-- Settles O27: the answer's three bytes are the header, the palette extended from 4 bits to 8. -/
theorem sprgethAnswersTheHeader : Obligations.SprgethAnswersTheHeader := by
  refine ⟨readFrom_sprgeth, fun sid s hs => ⟨fun hn => ?answered, fun hn => ?badSprite⟩⟩
  case answered =>
    refine ⟨_, checked_pos hs hn _ _, ?_⟩
    rw [headerPayload_toNat, BitVec.toNat_setWidth_of_le (by omega)]
  case badSprite => exact checked_neg hs (Nat.not_lt.2 hn) _ _

/-- Settles O28: past its two checks, `SPRGETT` only answers, with the tile id extended from 13 bits to 32. -/
theorem sprgettAnswersTheSlot : Obligations.SprgettAnswersTheSlot := by
  refine ⟨readFrom_sprgett, fun sid k s hs => ⟨fun hn hk => ?answered, fun hn => ?badSprite, fun hn hk => ?badSlot⟩⟩
  case answered =>
    exact ⟨_, (checked_pos hs hn _ _).trans (require_pos hk _ s _), BitVec.toNat_setWidth_of_le (by omega)⟩
  case badSprite => exact checked_neg hs (Nat.not_lt.2 hn) _ _
  case badSlot => exact (checked_pos hs hn _ _).trans (require_neg (Nat.not_lt.2 hk) _ s _)

end Sys2Proof.Machine

/-! ## Background plane (42_background.md) -/

namespace Sys2Proof.Machine

section Background

open Sys2Proof.Claims

variable {s : State} {px t : U16} {py : U8} {c : Cause}

/-- A coordinate check of the plane: both coordinates at once, on a running block. -/
theorem checkedPlane_pos (hs : s.fcause = 0) (hx : px.toNat < 48) (hy : py.toNat < 32) (act : Out) :
    unlessFaulted s (require (decide (px.toNat < Config.planeTW) && decide (py.toNat < Config.planeTH)) c s act)
      = act := by
  rw [← Bool.decide_and]
  exact checked_pos hs ⟨hx, hy⟩ c act

theorem checkedPlane_neg (hs : s.fcause = 0) (h : 48 ≤ px.toNat ∨ 32 ≤ py.toNat) (act : Out) :
    unlessFaulted s (require (decide (px.toNat < Config.planeTW) && decide (py.toNat < Config.planeTH)) c s act)
      = raiseFault c s := by
  rw [← Bool.decide_and, Config.planeTW_eq, Config.planeTH_eq]
  exact checked_neg hs (by omega) c act

/-- A tile id read from the map is the id last written there, whole: it fits the entry's 13 bits (R70). -/
theorem bgAt_setBg_toNat (s : State) {x y qx qy : Nat} (hx : x < 48) (hq : qx < 48) (ht : t.toNat < 6144) :
    ((s.setBg x y (t.setWidth 13)).bgAt qx qy).toNat = if qx = x ∧ qy = y then t.toNat else (s.bgAt qx qy).toNat := by
  have hfits : (t.setWidth 13).toNat = t.toNat := by
    rw [BitVec.toNat_setWidth, Nat.mod_eq_of_lt (by omega)]
  rw [bgAt_setBg s hx hq, apply_ite BitVec.toNat, hfits]

/-- A clamped coordinate loses nothing in the 8 bits of its register (R73). -/
theorem toNat_ofInt_clamp_sint16 (v : U16) {hi : Nat} (hhi : hi < 256) :
    ((BitVec.ofInt 8 (clamp (sint16 v) 0 hi)).toNat : Int) = clamp v.toInt 0 hi := by
  obtain ⟨hlow, hhigh⟩ := clamp_of_le (v := v.toInt) (Int.natCast_nonneg hi)
  rw [sint16_eq_toInt, BitVec.toNat_ofInt]
  omega

/-- What one axis of `SCROLL` becomes: its near edge, itself, or its far edge `hi`. -/
theorem scrollAxis_cases (v : U16) {hi : Nat} (hhi : hi < 256) {r : U8}
    (hr : r = BitVec.ofInt 8 (clamp (sint16 v) 0 hi)) :
    (v.toInt ≤ 0 → r.toNat = 0) ∧ (0 ≤ v.toInt → v.toInt ≤ hi → (r.toNat : Int) = v.toInt) ∧
      (hi ≤ v.toInt → r.toNat = hi) := by
  have hclamp := toNat_ofInt_clamp_sint16 v hhi
  rw [← hr, clamp] at hclamp
  omega

/-- The answer of `SCROLLGET` as a number (R74). -/
theorem scrollPayload_toNat (x y : U8) :
    (x.setWidth 16 ++ y.setWidth 16 : U32).toNat = x.toNat * 65536 + y.toNat := by
  rw [toNat_append_eq, BitVec.toNat_setWidth_of_le (by omega), BitVec.toNat_setWidth_of_le (by omega)]
  omega

end Background

/-- Settles O34: in range the row's 192 pixels exist, and `BGROW` writes them as one row. -/
theorem bgrowRendersOneRow : Obligations.BgrowRendersOneRow := by
  refine ⟨readFrom_bgrow, fun y s hs => ⟨fun hr hy => ?rendered, fun hy => ?badRow⟩⟩
  case rendered =>
    obtain ⟨pxs, hpxs, hl, hcolour⟩ := bgRow_of_ranges hr hy
    refine ⟨_, exec_bgrow hs rfl hy hpxs, rfl, fun sx sy hx _ => ?_⟩
    refine (congrArg BitVec.toNat (fbAt_setFbRow s hl hx)).trans ?_
    by_cases hsy : sy = y.toNat
    · rw [if_pos hsy, if_pos hsy, hcolour sx hx, hsy]
    · rw [if_neg hsy, if_neg hsy]
  case badRow => exact checked_neg hs (Nat.not_lt.2 hy) _ _

/-- Settles O29: on a running block, `BGSET` passes its two checks in order, or one of them is its fault. -/
theorem bgsetWritesOneMapEntry : Obligations.BgsetWritesOneMapEntry := by
  refine ⟨readFrom_bgset, fun px py t s hs =>
    ⟨fun hx hy ht => ?written, fun hplane => ?badPlane, fun hx hy ht => ?badTile⟩⟩
  case written =>
    exact ⟨_, (checkedPlane_pos hs hx hy _).trans (require_pos ht _ s _), rfl,
      fun qx qy hq _ => bgAt_setBg_toNat s hx hq ht⟩
  case badPlane => exact checkedPlane_neg hs hplane _
  case badTile => exact (checkedPlane_pos hs hx hy _).trans (require_neg (Nat.not_lt.2 ht) _ s _)

/-- Settles O32: `SCROLL` checks nothing, and its two axes are one clamp with two far edges. -/
theorem scrollClampsEachAxis : Obligations.ScrollClampsEachAxis := by
  refine ⟨readFrom_scroll, fun x y s hs => ⟨_, _, unlessFaulted_running hs _, ?_⟩⟩
  obtain ⟨hxNear, hxIn, hxFar⟩ := scrollAxis_cases x (hi := 192) (by omega) rfl
  exact ⟨hxNear, hxIn, hxFar, scrollAxis_cases y (hi := 128) (by omega) rfl⟩

/-- Settles O30: past its check, `BGGET` only answers, with the tile id extended from 13 bits to 32. -/
theorem bggetAnswersTheMapEntry : Obligations.BggetAnswersTheMapEntry := by
  refine ⟨readFrom_bgget, fun px py s hs => ⟨fun hx hy => ?answered, fun hplane => ?badPlane⟩⟩
  case answered => exact ⟨_, checkedPlane_pos hs hx hy _, BitVec.toNat_setWidth_of_le (by omega)⟩
  case badPlane => exact checkedPlane_neg hs hplane _

/-- Settles O31: a palette id below 16 fits the 4 bits of `BGP`. -/
theorem bgpalSetsThePlanePalette : Obligations.BgpalSetsThePlanePalette := by
  refine ⟨readFrom_bgpal, fun p s hs => ⟨fun hp => ?set, fun hp => ?badPalette⟩⟩
  case set => exact ⟨p.setWidth 4, by rw [BitVec.toNat_setWidth, Nat.mod_eq_of_lt hp], checked_pos hs hp _ _⟩
  case badPalette => exact checked_neg hs (Nat.not_lt.2 hp) _ _

/-- Settles O33: `SCROLLGET` checks nothing and only answers. -/
theorem scrollgetAnswersTheOffset : Obligations.ScrollgetAnswersTheOffset :=
  ⟨readFrom_scrollget, fun s hs => ⟨_, unlessFaulted_running hs _, scrollPayload_toNat s.scx s.scy⟩⟩

end Sys2Proof.Machine

/-! ## Sprites (43_sprite_engine.md) -/

namespace Sys2Proof.Machine

section Sprites

open Sys2Proof.Claims

variable {s : State} {n w h sx sy : Nat} {x y : Int} {q : SpritePixel} {pss : List (List (Nat × U24))}

/-- The pixel of a sprite at its local position `(lx, ly)` (R76). -/
def localPixel (lx ly : Nat) : SpritePixel := ⟨ly / 8, lx / 8, ly % 8, lx % 8⟩

/-- The colour of a pixel of sprite `n`: its tile's pixel through the sprite's palette (R77). -/
def State.spriteRgb (s : State) (n : Nat) (q : SpritePixel) : U24 :=
  s.palRgb (s.sprPal.read n).toNat
    (nibble (s.tileRow (s.sprTileAt n (q.ty * (s.sprW.read n).toNat + q.tx)).toNat q.r) q.c).toNat

theorem spriteRgb_localPixel_toNat (s : State) (n lx ly : Nat) :
    (s.spriteRgb n (localPixel lx ly)).toNat = spriteColourNat s n lx ly := by
  rw [State.spriteRgb, State.palRgb, rgb332_toNat, nibble_toNat]
  rfl

/-- A sprite of `w × h` tiles has one pixel at a screen position within its `8w × 8h` pixels, and none elsewhere. -/
theorem spritePixel_at_iff :
    (q ∈ spritePixels w h ∧ pixelX x q = sx ∧ pixelY y q = sy) ↔
      (0 ≤ sx - x ∧ sx - x < 8 * w ∧ 0 ≤ sy - y ∧ sy - y < 8 * h) ∧
        q = localPixel (sx - x).toNat (sy - y).toNat := by
  obtain ⟨ty, tx, r, c⟩ := q
  simp only [mem_spritePixels, pixelX, pixelY, Config.tileEdge, localPixel, SpritePixel.mk.injEq]
  constructor
  · rintro ⟨⟨hty, htx, hr, hc⟩, hx, hy⟩
    omega
  · rintro ⟨hin, rfl, rfl, rfl, rfl⟩
    omega

/-- Inside the viewport, two screen positions with one framebuffer key are the same position. -/
theorem fbKey_eq_iff_of_inViewport (hv : inViewport x y = true) (hx : sx < 192) :
    fbKey x.toNat y.toNat = fbKey sx sy ↔ x = sx ∧ y = sy := by
  have := inViewport_iff.1 hv
  simp only [fbKey, Config.viewW]
  omega

section Drawn

variable (hr : Ranges s) (hn : n < 256)
  (hpss : collect (s.drawPixel n x y) (spritePixels (s.sprW.read n).toNat (s.sprH.read n).toNat) = some pss)
include hr hn hpss

/-- What `SPRDRAW` writes: each pixel of the sprite inside the viewport, in its colour. -/
theorem mem_flatten_drawn {p : Nat × U24} :
    p ∈ pss.flatten ↔ ∃ q ∈ spritePixels (s.sprW.read n).toNat (s.sprH.read n).toNat,
      inViewport (pixelX x q) (pixelY y q) = true ∧
        p = (fbKey (pixelX x q).toNat (pixelY y q).toNat, s.spriteRgb n q) := by
  rw [List.mem_flatten]
  constructor
  · rintro ⟨ps, hps, hp⟩
    obtain ⟨q, hq, hdraw⟩ := mem_of_collect hpss hps
    rw [drawPixel_of_ranges hr hn hq, Option.some.injEq] at hdraw
    subst hdraw
    split at hp
    next hv => exact ⟨q, hq, hv, List.mem_singleton.1 hp⟩
    next => cases hp
  · rintro ⟨q, hq, hv, rfl⟩
    obtain ⟨ps, hps, hdraw⟩ := mem_collect_of_mem hpss hq
    rw [drawPixel_of_ranges hr hn hq, Option.some.injEq, if_pos hv] at hdraw
    exact ⟨ps, hps, hdraw ▸ List.mem_singleton.2 rfl⟩

/-- At a viewport pixel `SPRDRAW` writes one value at most: the sprite's colour there, where the sprite covers it. -/
theorem mem_flatten_drawn_at (hx : sx < 192) (hy : sy < 128) {v : U24} :
    (fbKey sx sy, v) ∈ pss.flatten ↔
      (0 ≤ sx - x ∧ sx - x < 8 * (s.sprW.read n).toNat ∧ 0 ≤ sy - y ∧ sy - y < 8 * (s.sprH.read n).toNat) ∧
        v = s.spriteRgb n (localPixel (sx - x).toNat (sy - y).toNat) := by
  rw [mem_flatten_drawn hr hn hpss]
  constructor
  · rintro ⟨q, hq, hv, hp⟩
    obtain ⟨hkey, rfl⟩ := Prod.mk.inj hp
    obtain ⟨hin, rfl⟩ := spritePixel_at_iff.1 ⟨hq, (fbKey_eq_iff_of_inViewport hv hx).1 hkey.symm⟩
    exact ⟨hin, rfl⟩
  · rintro ⟨hin, rfl⟩
    obtain ⟨hq, hqx, hqy⟩ := spritePixel_at_iff.2 ⟨hin, rfl⟩
    refine ⟨_, hq, ?_, ?_⟩
    · rw [hqx, hqy, inViewport_iff]
      omega
    · rw [hqx, hqy]
      rfl

/-- The framebuffer after `SPRDRAW`, one viewport pixel at a time (R77). -/
theorem fbAt_setFbPixels_drawn (hx : sx < 192) (hy : sy < 128) :
    ((s.setFbPixels pss.flatten).fbAt sx sy).toNat =
      if 0 ≤ sx - x ∧ sx - x < 8 * (s.sprW.read n).toNat ∧ 0 ≤ sy - y ∧ sy - y < 8 * (s.sprH.read n).toNat
      then spriteColourNat s n (sx - x).toNat (sy - y).toNat
      else (s.fbAt sx sy).toNat := by
  have hwrites {v : U24} := mem_flatten_drawn_at hr hn hpss hx hy (v := v)
  rw [State.fbAt, State.setFbPixels_fb]
  split
  next hin =>
    rw [← spriteRgb_localPixel_toNat]
    refine congrArg BitVec.toNat (Store.read_writeAll_of_mem s.fb _ (hwrites.2 ⟨hin, rfl⟩) ?_)
    rintro ⟨k, v⟩ hp rfl
    exact (hwrites.1 hp).2
  next hout =>
    refine congrArg BitVec.toNat (Store.read_writeAll_of_not_mem s.fb _ ?_)
    rintro ⟨k, v⟩ hp rfl
    exact hout (hwrites.1 hp).1

end Drawn

/-- In range, every pixel of a sprite exists, wherever it is drawn. -/
theorem collect_drawPixel_of_ranges (hr : Ranges s) (hn : n < 256) (x y : Int) :
    ∃ pss, collect (s.drawPixel n x y) (spritePixels (s.sprW.read n).toNat (s.sprH.read n).toNat) = some pss :=
  collect_isSome fun _ hq => Option.isSome_of_eq_some (drawPixel_of_ranges hr hn hq)

/-- Past its check of the sprite, `SPRDRAW` writes what its pixels draw, all together. -/
theorem exec_sprdraw {sid x y : U16} (hs : s.fcause = 0) (hn : sid.toNat < 256)
    (hpss : collect (s.drawPixel sid.toNat x.toInt y.toInt)
      (spritePixels (s.sprW.read sid.toNat).toNat (s.sprH.read sid.toNat).toNat) = some pss) :
    exec (.sprdraw sid x y) s = .next ((s.setFbPixels pss.flatten).answer (.okData 0)) := by
  refine (checked_pos hs hn _ _).trans ?_
  rw [sint16_eq_toInt, sint16_eq_toInt, hpss]

end Sprites

/-- Settles O37: in range every pixel of the sprite exists, and no two of them have one screen position. -/
theorem sprdrawComposesTheSprite : Obligations.SprdrawComposesTheSprite := by
  refine ⟨readFrom_sprdraw, fun sid x y s hs => ⟨fun hr hn => ?drawn, fun hn => ?badSprite⟩⟩
  case drawn =>
    obtain ⟨pss, hpss⟩ := collect_drawPixel_of_ranges hr hn x.toInt y.toInt
    exact ⟨_, exec_sprdraw hs hn hpss, rfl, fun sx sy hx hy => fbAt_setFbPixels_drawn hr hn hpss hx hy⟩
  case badSprite => exact checked_neg hs (Nat.not_lt.2 hn) _ _

end Sys2Proof.Machine

/-! ## Row writes (44_row_write.md) -/

namespace Sys2Proof.Machine

section RowWrites

open Sys2Proof.Claims

variable {s s' t : State} {row : U8} {rest bs : List U8} {bytes : Nat → U8} {p : Nat}

/-! ### The row source -/

/-- Where one of the 192 bytes is missing, the row source fails. -/
theorem memRead_of_rowBytesMissing (h : RowBytesMissing s) : memRead s s.rowBase 192 = none := by
  refine Option.eq_none_iff_forall_ne_some.2 fun bs hbs => ?_
  obtain ⟨hpage, hl, hread⟩ := memRead_eq_some.1 hbs
  obtain hshort | ⟨c, hc, hnone⟩ := h
  · omega
  · exact nomatch hnone.symm.trans (hread c (by omega))

/-- The row source looks at the two parameters and at the 192 bytes only. -/
theorem memRead_congr (hbase : s'.rowBase = s.rowBase) (hpage : s'.pageBytes = s.pageBytes)
    (hmem : ∀ c, c < 192 → s'.vmMem.read (s.rowBase + c) = s.vmMem.read (s.rowBase + c)) :
    memRead s' s'.rowBase 192 = memRead s s.rowBase 192 := by
  refine Option.ext fun bs => ?_
  rw [memRead_eq_some, memRead_eq_some, hbase, hpage]
  refine and_congr_right fun _ => and_congr_right fun hl => forall₂_congr fun j hj => ?_
  rw [hmem j (by omega)]

/-! ### The line -/

/-- The colour of a byte looks at the mode and at one palette only. -/
theorem resolvePx_congr (hmode : s'.mode = s.mode) (hpal : ∀ i, i < 16 → s'.palAt p i = s.palAt p i) :
    s'.resolvePx p = s.resolvePx p := by
  funext b
  rw [resolvePx_eq, resolvePx_eq, hmode]
  by_cases hb : b.toNat < 16
  · rw [State.palRgb, State.palRgb, hpal _ hb]
  · rw [if_neg hb, if_neg hb]

/-- In indexed mode one byte of 16 or more leaves no line to write. -/
theorem rowLine_of_indexed_ge (hm : s.mode = 0) (hb : ∃ c, c < 192 ∧ 16 ≤ (bytes c).toNat) :
    collect (s.resolvePx p) ((List.range 192).map bytes) = none := by
  obtain ⟨c, hc, hge⟩ := hb
  refine Option.eq_none_iff_forall_ne_some.2 fun line hline => ?_
  obtain ⟨v, -, hv⟩ := mem_collect_of_mem hline (List.mem_map_of_mem (List.mem_range.2 hc))
  exact nomatch (resolvePx_of_indexed_ge p hm hge).symm.trans hv

/-- A pixel of the row just written is the line's. -/
theorem fbAt_row_setFbRow (s : State) {y c : Nat} {pxs : List U24} (hl : pxs.length = 192) (hc : c < 192) :
    (s.setFbRow y pxs).fbAt c y = pxs[c] := by
  rw [fbAt_setFbRow s hl hc, if_pos rfl]

/-! ### One cause -/

theorem fcause_of_raiseFault {o : Out} {c : Cause} (h : o = .next t) (hc : o = raiseFault c s) : t.fcause = c.code := by
  cases h.symm.trans hc
  rfl

/-- Two operations that end in one fault leave one cause, and not 0. -/
theorem same_cause_of_raiseFault {o o' : Out} {c : Cause} {u : State} {P : Prop} (h : o = .next t) (h' : o' = .next u)
    (hc : o = raiseFault c s) (hc' : o' = raiseFault c s') : u.fcause = t.fcause ∧ (t.fcause = 0 → P) := by
  have ht := fcause_of_raiseFault h hc
  exact ⟨(fcause_of_raiseFault h' hc').trans ht.symm, fun h0 => absurd (ht.symm.trans h0) c.code_ne_zero⟩

/-! ### What `WROW` comes to, check by check -/

theorem writeRow_of_ge (hrow : 128 ≤ row.toNat) (bs : List U8) (s : State) :
    writeRow row bs s = raiseFault .oorRow s :=
  require_neg (Nat.not_lt.2 hrow) _ s _

theorem writeRow_of_no_line (hrow : row.toNat < 128) (hline : collect (s.resolvePx s.rowpal.toNat) bs = none) :
    writeRow row bs s = raiseFault .oorColour s := by
  refine (require_pos hrow _ s _).trans ?_
  rw [hline]

/-- Past the guard and the pop, `WROW` is its read of the row source, and then the write of the row. -/
theorem exec_wrow_popped (hs : s.fcause = 0) (hpop : s.vmStack = row :: rest) :
    exec .wrow s = (memRead s s.rowBase 192).elim (raiseFault .pvMemShort { s with vmStack := rest })
      fun bs => writeRow row bs { s with vmStack := rest } := by
  have hread : memRead { s with vmStack := rest } s.rowBase Config.viewW = memRead s s.rowBase 192 := rfl
  refine (unlessFaulted_running hs _).trans ?_
  rw [stackPop_eq_some.2 ⟨rest, hpop, rfl⟩]
  simp only [hread]
  cases memRead s s.rowBase 192 <;> rfl

theorem exec_wrow_of_memRead_none (hs : s.fcause = 0) (hpop : s.vmStack = row :: rest)
    (hmem : memRead s s.rowBase 192 = none) :
    exec .wrow s = raiseFault .pvMemShort { s with vmStack := rest } := by
  rw [exec_wrow_popped hs hpop, hmem]
  rfl

theorem exec_wrow_of_memRead_some (hs : s.fcause = 0) (hpop : s.vmStack = row :: rest)
    (hmem : memRead s s.rowBase 192 = some bs) :
    exec .wrow s = writeRow row bs { s with vmStack := rest } := by
  rw [exec_wrow_popped hs hpop, hmem]
  rfl

/-- A `WROW` that leaves no cause has passed every check and written its line. -/
theorem wrow_completed (hs : s.fcause = 0) (hpop : s.vmStack = row :: rest) (h : exec .wrow s = .next t)
    (ht : t.fcause = 0) :
    row.toNat < 128 ∧ ∃ bs line, memRead s s.rowBase 192 = some bs ∧
      collect (s.resolvePx s.rowpal.toNat) bs = some line ∧ line.length = 192 ∧
      t = (State.setFbRow { s with vmStack := rest } row.toNat line).answer .ok := by
  have not_raised : ∀ c, exec .wrow s ≠ raiseFault c { s with vmStack := rest } := fun c hc =>
    c.code_ne_zero ((fcause_of_raiseFault h hc).symm.trans ht)
  cases hmem : memRead s s.rowBase 192 with
  | none => exact absurd (exec_wrow_of_memRead_none hs hpop hmem) (not_raised _)
  | some bs =>
    have hexec := exec_wrow_of_memRead_some hs hpop hmem
    rcases Nat.lt_or_ge row.toNat 128 with hrow | hrow
    · cases hline : collect (s.resolvePx s.rowpal.toNat) bs with
      | none => exact absurd (hexec.trans (writeRow_of_no_line hrow hline)) (not_raised _)
      | some line =>
        refine ⟨hrow, bs, line, rfl, hline, (collect_length hline).trans (length_of_memRead hmem), ?_⟩
        exact Host.Outcome.next.inj <| h.symm.trans <| hexec.trans (writeRow_of_line hrow hline)
    · exact absurd (hexec.trans (writeRow_of_ge hrow bs _)) (not_raised _)

end RowWrites

/-- Settles O39: the four checks in order, each with its fault; past them the line is written as one row. -/
theorem wrowWritesOneRowOrFaults : Obligations.WrowWritesOneRowOrFaults := by
  refine ⟨rfl, fun s hs => ⟨fun hempty => ?emptyStack, fun row rest hpop => ⟨fun hmiss => ?memShort,
    fun bytes hmem => ⟨fun hrow => ?badRow, fun hrow hm hbad => ?badColour, fun hrow hb => ?written⟩⟩⟩⟩
  case emptyStack =>
    refine (unlessFaulted_running hs _).trans ?_
    rw [stackPop_eq_none.2 hempty]
    rfl
  case memShort => exact exec_wrow_of_memRead_none hs hpop (memRead_of_rowBytesMissing hmiss)
  case badRow =>
    exact (exec_wrow_of_memRead_some hs hpop (memRead_of_rowBytes hmem)).trans (writeRow_of_ge hrow _ _)
  case badColour =>
    exact (exec_wrow_of_memRead_some hs hpop (memRead_of_rowBytes hmem)).trans
      (writeRow_of_no_line hrow (rowLine_of_indexed_ge hm hbad))
  case written =>
    obtain ⟨line, hline, hl, hcolour⟩ := rowLine_of_accepted hb
    refine ⟨_, exec_wrow hs hpop hmem hrow hline, rfl, fun sx sy hx _ => ?_⟩
    refine (congrArg BitVec.toNat (fbAt_setFbRow _ hl hx)).trans ?_
    rw [apply_ite BitVec.toNat, hcolour sx hx]
    rfl

/-- Settles O40: the two blocks read the same bytes and resolve them alike, so they meet the same fault or write
the same line. -/
theorem rowWriteDependsOnBytesModeAndRowPalette : Obligations.RowWriteDependsOnBytesModeAndRowPalette := by
  intro s s' t t' row rest rest' hs hs' hpop hpop' hmode hrowpal hpal hbase hpage hbytes ht ht'
  have hsource := memRead_congr hbase hpage hbytes
  have hcolours : s'.resolvePx s'.rowpal.toNat = s.resolvePx s.rowpal.toNat := by
    rw [hrowpal, resolvePx_congr hmode hpal]
  cases hmem : memRead s s.rowBase 192 with
  | none =>
    exact same_cause_of_raiseFault ht ht' (exec_wrow_of_memRead_none hs hpop hmem)
      (exec_wrow_of_memRead_none hs' hpop' (hsource.trans hmem))
  | some bs =>
    have hexec := exec_wrow_of_memRead_some hs hpop hmem
    have hexec' := exec_wrow_of_memRead_some hs' hpop' (hsource.trans hmem)
    rcases Nat.lt_or_ge row.toNat 128 with hrow | hrow
    · cases hline : collect (s.resolvePx s.rowpal.toNat) bs with
      | none =>
        exact same_cause_of_raiseFault ht ht' (hexec.trans (writeRow_of_no_line hrow hline))
          (hexec'.trans (writeRow_of_no_line hrow (hcolours ▸ hline)))
      | some line =>
        have hl : line.length = 192 := (collect_length hline).trans (length_of_memRead hmem)
        cases ht.symm.trans (hexec.trans (writeRow_of_line hrow hline))
        cases ht'.symm.trans (hexec'.trans (writeRow_of_line hrow (hcolours ▸ hline)))
        exact ⟨hs'.trans hs.symm, fun _ c hc => (fbAt_row_setFbRow _ hl hc).trans (fbAt_row_setFbRow _ hl hc).symm⟩
    · exact same_cause_of_raiseFault ht ht' (hexec.trans (writeRow_of_ge hrow bs _))
        (hexec'.trans (writeRow_of_ge hrow bs _))

/-- Settles O41: the first write leaves the second one the same bytes and palette, so it writes the same line. -/
theorem rowWriteTwiceIsOnce : Obligations.RowWriteTwiceIsOnce := by
  intro s t row rest hs hpop h ht
  obtain ⟨hrow, bs, line, hmem, hline, hl, rfl⟩ := wrow_completed hs hpop h ht
  refine ⟨_, (exec_wrow_of_memRead_some ht rfl hmem).trans (writeRow_of_line hrow hline), hs, rfl,
    fun sx sy hx _ => ?_⟩
  refine (fbAt_setFbRow _ hl hx).trans ?_
  by_cases hsy : sy = row.toNat
  · subst hsy
    rw [if_pos rfl]
    exact (fbAt_row_setFbRow _ hl hx).symm
  · rw [if_neg hsy]
    rfl

/-- Settles O42: the row source fails first, or the row index does. -/
theorem rowIndexOutOfBoundsWritesNothing : Obligations.RowIndexOutOfBoundsWritesNothing := by
  intro s t row rest hs hpop hrow h
  cases hmem : memRead s s.rowBase 192 with
  | none =>
    cases h.symm.trans (exec_wrow_of_memRead_none hs hpop hmem)
    exact ⟨.inr rfl, rfl⟩
  | some bs =>
    cases h.symm.trans ((exec_wrow_of_memRead_some hs hpop hmem).trans (writeRow_of_ge hrow bs _))
    exact ⟨.inl rfl, rfl⟩

/-- Settles O43: `MODESET` checks nothing but the guard. -/
theorem modesetChoosesThePolicy : Obligations.ModesetChoosesThePolicy :=
  ⟨readFrom_modeset, fun _ _ hs => unlessFaulted_running hs _⟩

/-- Settles O44: a palette id below 16 fits the 4 bits of `ROWPAL`. -/
theorem rowpalsetSetsTheRowPalette : Obligations.RowpalsetSetsTheRowPalette := by
  refine ⟨readFrom_rowpalset, fun p s hs => ⟨fun hp => ?set, fun hp => ?badPalette⟩⟩
  case set => exact ⟨p.setWidth 4, by rw [BitVec.toNat_setWidth, Nat.mod_eq_of_lt hp], checked_pos hs hp _ _⟩
  case badPalette => exact checked_neg hs (Nat.not_lt.2 hp) _ _

end Sys2Proof.Machine

/-! ## Present, no-operations, tick and status (45_present_dispatch.md) -/

namespace Sys2Proof.Machine

section PresentDispatch

variable {s : State}

/-- A frame's word at a viewport position is the pixel there, extended from 24 bits to 32 (R86, R87). -/
theorem frameWords_frame {sx sy : Nat} (hx : sx < 192) (hy : sy < 128) :
    (frameWords s.frame)[sy * 192 + sx]? = some ((s.fbAt sx sy).setWidth 32) := by
  have hlt : sy * 192 + sx < (frameWords s.frame).length := by rw [frameWords_length]; omega
  rw [List.getElem?_eq_getElem hlt, frameWords_getElem]
  exact congrArg some (Store.read_widen s.fb _)

/-- Past the guard, `PRESENT` hands the frame over, and the backend's answer chooses the port's. -/
theorem exec_present (hs : s.fcause = 0) :
    exec .present s = bif s.displayOk then .next ((displayPresent s s.frame).2.answer .ok)
      else raiseFault .dbfPresent (displayPresent s s.frame).2 := by
  refine (unlessFaulted_running hs _).trans ?_
  unfold displayPresent
  cases s.displayOk <;> rfl

theorem exec_tick_granted (hs : s.fcause = 0) (hh : s.haltSent = 0) :
    exec (.tick 1) s = .next (State.answer { s with haltSent := 1 } (.haltReq 1)) :=
  (if_neg (not_not_intro hs)).trans (if_pos ⟨rfl, hh⟩)

theorem exec_tick_quiet {q : U1} (h : s.fcause ≠ 0 ∨ ¬(q = 1 ∧ s.haltSent = 0)) :
    exec (.tick q) s = .next (s.answer (.haltReq 0)) := by
  by_cases hs : s.fcause = 0
  · exact (if_neg (not_not_intro hs)).trans (if_neg (h.resolve_left (not_not_intro hs)))
  · exact if_pos hs

/-- The status word as a number: each field by its weight (10_state.md R25). -/
theorem status_toNat (s : State) :
    s.status.toNat = s.bgp.toNat * 2 ^ 16 + s.rowpal.toNat * 2 ^ 12 + s.mode.toNat * 2 ^ 9 + s.haltSent.toNat * 2 ^ 8
      + s.fcause.toNat := by
  simp only [State.status, toNat_append_eq, BitVec.toNat_ofNat]
  omega

end PresentDispatch

/-- Settles O45: the frame handed over is `State.frame`, whichever way the backend answers. -/
theorem presentHandsOverTheFramebuffer : Obligations.PresentHandsOverTheFramebuffer := by
  intro s hs
  refine ⟨s.frame, frameWords_length _, fun sx sy hx hy => ?pixel, fun hd => ?accepted, fun hd => ?refused⟩
  case pixel =>
    rw [frameWords_frame hx hy, Option.map_some, BitVec.toNat_setWidth_of_le (by decide)]
  case accepted => simp only [exec_present hs, displayPresent, hd, cond_true]; rfl
  case refused => simp only [exec_present hs, displayPresent, hd, cond_false]; rfl

/-- Settles O46: `NOP` checks nothing but the guard. -/
theorem nopSignalsChangeNothing : Obligations.NopSignalsChangeNothing := by
  intro n s h1 h2 hs
  obtain ⟨-, -, decode_nop⟩ := signalDecoderComparesAllBits
  exact ⟨decode_nop n h1 h2, unlessFaulted_running hs _⟩

/-- Settles O47: the all-zero word is the word of op 0 with zero fields. -/
theorem tnopChangesNothing : Obligations.TnopChangesNothing :=
  ⟨readFrom_tnop, readFrom_tnop 0 0 0, fun _ hs => unlessFaulted_running hs _⟩

/-- Settles O48: each of the three conditions of the second clause denies the condition of the first. -/
theorem tickAsksTheVmToHaltOnce : Obligations.TickAsksTheVmToHaltOnce := by
  refine ⟨fun _ => rfl, fun q s => ⟨fun hs hq hh => ?granted, fun h => exec_tick_quiet ?_⟩⟩
  case granted =>
    subst hq
    exact exec_tick_granted hs hh
  obtain hs | rfl | hh := h
  · exact .inl hs
  · exact .inr fun ⟨hq, _⟩ => absurd hq (by decide)
  · exact .inr fun ⟨_, h0⟩ => absurd (hh.symm.trans h0) (by decide)

/-- Settles O50: `STATGET` has no guard, and its answer is the status word, which is 0 after reset. -/
theorem statgetAnswersTheStatusWord : Obligations.StatgetAnswersTheStatusWord :=
  ⟨readFrom_statget, rfl, fun s => ⟨s.status, rfl, status_toNat s⟩⟩

end Sys2Proof.Machine

/-! ## Faults, the faulted condition and the halt request (60_exceptions.md) -/

namespace Sys2Proof.Machine

section FaultTaken

variable {i : Instr} {s t : State}

/-- A fault records and answers one of the operation's own causes; of the environment, `WROW` may have popped its byte, and
the frame the backend did not take is listed (60_exceptions.md R97, R100, R101; assumption log 6). -/
theorem Effect.fault_cases (e : Effect i s t) (hs : s.fcause = 0) (ht : t.fcause ≠ 0) :
    ∃ code ∈ raisable i, ∃ stack frames,
      t = { s with fcause := code, responses := .err code :: s.responses, vmStack := stack, presents := frames } ∧
      (stack = s.vmStack ∨ i = .wrow ∧ ∃ b, s.vmStack = b :: stack) ∧
      (frames = s.presents ∨ i = .present ∧ frames = ⟨s.frame, false⟩ :: s.presents) := by
  cases e with
  | raised _ c hc => exact ⟨_, hc, _, _, rfl, .inl rfl, .inl rfl⟩
  | notTaken _ hi => exact ⟨_, hi ▸ by decide, _, _, rfl, .inl rfl, .inr ⟨hi, rfl⟩⟩
  | stackEmpty _ hi => exact ⟨_, hi ▸ by decide, _, _, rfl, .inl rfl, .inl rfl⟩
  | rowFault _ hi b rest hpop c hc => exact ⟨_, hc, _, _, rfl, .inr ⟨hi, b, hpop⟩, .inl rfl⟩
  | _ => exact absurd hs ht

end FaultTaken

/-- Settles O17: what a fault can leave is said by `Effect.fault_cases`. -/
theorem aFaultChangesOnlyTheCause : Obligations.AFaultChangesOnlyTheCause := by
  intro i s t hs h ht
  obtain ⟨code, -, stack, frames, rfl, hstack, hframes⟩ := (effect_of_exec h).fault_cases hs ht
  exact ⟨rfl, hstack, hframes⟩

/-- Settles O18: the code a fault leaves in `FCAUSE` is one of the operation's own. -/
theorem eachOperationRaisesOnlyItsCauses : Obligations.EachOperationRaisesOnlyItsCauses := by
  intro i s t hs h ht
  obtain ⟨code, hcode, _, _, rfl, -⟩ := (effect_of_exec h).fault_cases hs ht
  exact hcode

/-- Settles O15: `STATGET` has no guard, a tick has its own, and every other operation the common one. -/
theorem faultedBlockRefusesEveryWord : Obligations.FaultedBlockRefusesEveryWord := by
  intro i s hs
  cases i with
  | statget => rfl
  | tick q => exact exec_tick_quiet (.inl hs)
  | _ => exact unlessFaulted_faulted hs _

/-! ### Steps without reset -/

section WithoutReset

variable {s t u : State} {k : Nat}

/-- Every step takes the head of the inbox. -/
theorem inbox_of_step (h : step s = .next t) : t.inbox = s.inbox.tail := by
  obtain ⟨hx, rfl⟩ | ⟨w, rest, hx, hw⟩ | ⟨_, _, _, rest, hx, rfl⟩ | ⟨rest, hx, rfl⟩ := step_cases h <;> rw [hx]
  · rfl
  · exact (effect_of_exec hw).inbox_eq
  · rfl
  · rfl

/-- In a run without reset the next input is no reset, and the run from the next state is without reset too. -/
theorem reset_not_mem_take_succ (hr : Input.reset ∉ s.inbox.take (k + 1)) :
    (∀ rest, s.inbox ≠ .reset :: rest) ∧ Input.reset ∉ s.inbox.tail.take k := by
  cases hx : s.inbox with
  | nil => simp
  | cons x rest =>
    obtain ⟨hhead, htail⟩ : ¬Input.reset = x ∧ Input.reset ∉ rest.take k := by simpa [hx] using hr
    exact ⟨fun _ h => hhead (List.cons.inj h).1.symm, htail⟩

/-- `t` is `s` but for the inputs to come, the environment the inputs set, and the answers given. -/
def DiffersOnlyOutside (s t : State) : Prop :=
  ∃ inbox stack mem ok rs,
    t = { s with inbox := inbox, vmStack := stack, vmMem := mem, displayOk := ok, responses := rs }

theorem DiffersOnlyOutside.refl (s : State) : DiffersOnlyOutside s s := ⟨_, _, _, _, _, rfl⟩

theorem DiffersOnlyOutside.trans (h : DiffersOnlyOutside s u) (h' : DiffersOnlyOutside u t) : DiffersOnlyOutside s t := by
  obtain ⟨_, _, _, _, _, rfl⟩ := h
  obtain ⟨_, _, _, _, _, rfl⟩ := h'
  exact ⟨_, _, _, _, _, rfl⟩

theorem DiffersOnlyOutside.fcause_eq (h : DiffersOnlyOutside s t) : t.fcause = s.fcause := by
  obtain ⟨_, _, _, _, _, rfl⟩ := h
  rfl

theorem DiffersOnlyOutside.sameBlock (h : DiffersOnlyOutside s t) : SameBlock s t := by
  obtain ⟨_, _, _, _, _, rfl⟩ := h
  constructor <;> rfl

theorem DiffersOnlyOutside.parameters_presents_eq (h : DiffersOnlyOutside s t) :
    t.rowBase = s.rowBase ∧ t.pageBytes = s.pageBytes ∧ t.presents = s.presents := by
  obtain ⟨_, _, _, _, _, rfl⟩ := h
  exact ⟨rfl, rfl, rfl⟩

/-- A faulted block refuses a word, and no other input but reset touches it (60_exceptions.md R102). -/
theorem step_of_faulted (hs : s.fcause ≠ 0) (hr : ∀ rest, s.inbox ≠ .reset :: rest) :
    ∃ t, step s = .next t ∧ DiffersOnlyOutside s t := by
  cases hx : s.inbox with
  | nil =>
    obtain ⟨idle, -⟩ := stepWithoutAWord
    exact ⟨s, idle s hx, .refl s⟩
  | cons x rest =>
    rw [step_of_inbox hx]
    cases x with
    | word w => exact ⟨_, faultedBlockRefusesEveryWord (decode w) { s with inbox := rest } hs, _, _, _, _, _, rfl⟩
    | environment => exact ⟨_, rfl, _, _, _, _, _, rfl⟩
    | reset => exact absurd hx (hr rest)

theorem run_of_faulted (hs : s.fcause ≠ 0) (hr : Input.reset ∉ s.inbox.take k) :
    ∃ t, run k s = .next t ∧ DiffersOnlyOutside s t := by
  induction k generalizing s with
  | zero => exact ⟨s, rfl, .refl s⟩
  | succ k ih =>
    obtain ⟨hhead, htail⟩ := reset_not_mem_take_succ hr
    obtain ⟨u, hu, hsu⟩ := step_of_faulted hs hhead
    rw [run_succ_of_step hu]
    obtain ⟨t, ht, hut⟩ := ih (hsu.fcause_eq ▸ hs) (inbox_of_step hu ▸ htail)
    exact ⟨t, ht, hsu.trans hut⟩

/-! ### The halt request -/

/-- From `s` to `t`, as many halt requests were given as `HALT_SENT` rose by. -/
def HaltRequestsLatched (s t : State) : Prop :=
  t.responses.count (.haltReq 1) + s.haltSent.toNat = s.responses.count (.haltReq 1) + t.haltSent.toNat

/-- An operation gives no halt request and leaves `HALT_SENT`, or it gives the one that sets it (R89, R98). -/
theorem Effect.haltReq_cases {i : Instr} (e : Effect i s t) :
    (t.haltSent = s.haltSent ∧ ∃ r, t.responses = r :: s.responses ∧ r ≠ .haltReq 1) ∨
    (s.haltSent = 0 ∧ t.haltSent = 1 ∧ t.responses = .haltReq 1 :: s.responses) := by
  cases e with
  | tickHalt _ _ _ hh => exact .inr ⟨hh, rfl, rfl⟩
  | tickQuiet => exact .inl ⟨rfl, _, rfl, by decide⟩
  | _ => exact .inl ⟨rfl, _, rfl, nofun⟩

theorem Effect.haltRequestsLatched {i : Instr} (e : Effect i s t) : HaltRequestsLatched s t := by
  unfold HaltRequestsLatched
  obtain ⟨hh, r, hresp, hr⟩ | ⟨h0, h1, hresp⟩ := e.haltReq_cases
  · rw [hresp, hh, List.count_cons_of_ne hr]
  · rw [hresp, h0, h1, List.count_cons_self]
    rfl

theorem step_haltRequestsLatched (hr : ∀ rest, s.inbox ≠ .reset :: rest) (h : step s = .next t) :
    HaltRequestsLatched s t := by
  obtain ⟨-, rfl⟩ | ⟨_, _, -, hw⟩ | ⟨_, _, _, _, -, rfl⟩ | ⟨rest, hx, -⟩ := step_cases h
  · rfl
  · exact (effect_of_exec hw).haltRequestsLatched
  · rfl
  · exact absurd hx (hr rest)

theorem run_haltRequestsLatched (hr : Input.reset ∉ s.inbox.take k) (h : run k s = .next t) :
    HaltRequestsLatched s t := by
  induction k generalizing s with
  | zero => cases h; rfl
  | succ k ih =>
    obtain ⟨hhead, htail⟩ := reset_not_mem_take_succ hr
    obtain ⟨u, hu, hut⟩ := run_succ_next h
    have first : HaltRequestsLatched s u := step_haltRequestsLatched hhead hu
    have others : HaltRequestsLatched u t := ih (inbox_of_step hu ▸ htail) hut
    unfold HaltRequestsLatched at *
    omega

end WithoutReset

/-- Settles O16: no step of the run touches the block, its parameters or the frames handed over. -/
theorem faultedUntilReset : Obligations.FaultedUntilReset := by
  intro k s hs hr
  obtain ⟨t, ht, hst⟩ := run_of_faulted hs hr
  exact ⟨t, ht, hst.sameBlock, hst.parameters_presents_eq⟩

/-- Settles O49: `HALT_SENT` is one bit, so it rises by at most 1. -/
theorem haltRequestAtMostOnceBetweenResets : Obligations.HaltRequestAtMostOnceBetweenResets := by
  intro k s t hr h
  have latched : HaltRequestsLatched s t := run_haltRequestsLatched hr h
  have bit : t.haltSent.toNat < 2 := t.haltSent.isLt
  refine ⟨latched, ?_⟩
  unfold HaltRequestsLatched at latched
  omega

end Sys2Proof.Machine

/-! ## Black until a palette entry is written or direct mode chosen (70_reset_and_hazards.md R106)

Every pixel that an operation draws in indexed mode is the colour of a palette entry, and entry 0 is black. -/

namespace Sys2Proof.Machine

section Black

open Sys2Proof.Claims

variable {s t : State} {i : Instr} {k w : Nat} {st : Store w}

/-! ### Stores that read 0 everywhere -/

theorem Store.read_writeRun_zeros (h : ∀ j, st.read j = 0) {vs : List (BitVec w)} (hv : ∀ v ∈ vs, v = 0)
    (base j : Nat) : (st.writeRun base vs).read j = 0 := by
  rw [Store.read_writeRun]
  split
  · exact hv _ (List.getElem_mem _)
  · exact h j

theorem Store.read_writeAll_zeros (h : ∀ j, st.read j = 0) {ps : List (Nat × BitVec w)} (hp : ∀ p ∈ ps, p.2 = 0)
    (j : Nat) : (st.writeAll ps).read j = 0 := by
  induction ps generalizing st with
  | nil => exact h j
  | cons p ps ih =>
    obtain ⟨hp0, hps⟩ := List.forall_mem_cons.1 hp
    refine ih (fun n => ?_) hps
    rw [Store.read_write, hp0, h, ite_self]

/-- The pixels of the top row, continued, run through the whole framebuffer. -/
theorem fb_read_of_allBlack (hb : AllBlack s) (j : Nat) : s.fb.read j = 0 := by
  simpa [State.fbAt, fbKey] using hb.fb j 0

/-! ### What is drawn with black palettes -/

theorem palRgb_of_allBlack (hb : AllBlack s) (p j : Nat) : s.palRgb p j = 0 := by
  rw [State.palRgb, hb.pal]
  rfl

theorem eq_zero_of_resolvePx (hb : AllBlack s) {p : Nat} {b : U8} {c : U24} (h : s.resolvePx p b = some c) : c = 0 := by
  rw [resolvePx_eq, if_pos hb.mode] at h
  split at h
  · exact (Option.some.inj h).symm.trans (palRgb_of_allBlack hb _ _)
  · cases h

theorem eq_zero_of_bgRgb (hb : AllBlack s) {sx sy : Nat} {c : U24} (h : s.bgRgb sx sy = some c) : c = 0 := by
  unfold State.bgRgb at h
  split at h
  · cases h
  · exact (Option.some.inj h).symm.trans (palRgb_of_allBlack hb _ _)

theorem eq_zero_of_mem_drawPixel (hb : AllBlack s) {n : Nat} {x y : Int} {q : SpritePixel} {ps : List (Nat × U24)}
    (h : s.drawPixel n x y q = some ps) : ∀ p ∈ ps, p.2 = 0 := by
  unfold State.drawPixel at h
  split at h
  · cases h
  · split at h
    · cases h
    · split at h
      · cases h
        exact List.forall_mem_singleton.2 (palRgb_of_allBlack hb _ _)
      · cases h
        exact List.forall_mem_nil _

theorem forall_mem_of_collect {α β : Type} {f : α → Option β} {as : List α} {bs : List β} {P : β → Prop}
    (h : collect f as = some bs) (hf : ∀ a b, f a = some b → P b) : ∀ b ∈ bs, P b := by
  intro b hb
  obtain ⟨a, -, ha⟩ := mem_of_collect h hb
  exact hf a b ha

/-! ### Operations, steps and runs -/

/-- The operation is neither of the two that end the black screen: `PALSET`, and `MODESET 1`. -/
def KeepsBlack (i : Instr) : Prop := (∀ p j v, i ≠ .palset p j v) ∧ i ≠ .modeset 1

/-- Each of the three drawing operations writes only zeros, and no other operation writes a pixel. -/
theorem Effect.fb_stays_black (e : Effect i s t) (hb : AllBlack s) (j : Nat) : t.fb.read j = 0 := by
  have old : ∀ n, s.fb.read n = 0 := fb_read_of_allBlack hb
  cases e with
  | rowWritten _ _ _ _ _ _ _ _ _ hl =>
    exact Store.read_writeRun_zeros old (forall_mem_of_collect hl fun _ _ => eq_zero_of_resolvePx hb) _ j
  | bgrow _ _ _ _ _ hl =>
    exact Store.read_writeRun_zeros old (forall_mem_of_collect hl fun _ _ => eq_zero_of_bgRgb hb) _ j
  | sprdraw _ _ _ _ _ _ _ hl =>
    have zeros := forall_mem_of_collect hl fun _ _ => eq_zero_of_mem_drawPixel hb
    exact Store.read_writeAll_zeros old (List.forall_mem_flatten.2 zeros) j
  | _ => exact old j

theorem Effect.mode_of_keepsBlack (e : Effect i s t) (hk : KeepsBlack i) (hm : s.mode = 0) : t.mode = 0 := by
  obtain ⟨-, hdirect⟩ := hk
  cases e with
  | modeset _ m hi =>
    have hm1 : m ≠ 1 := fun h => hdirect (h ▸ hi)
    exact (BitVec.eq_zero_or_eq_one m).resolve_right hm1
  | _ => exact hm

theorem Effect.allBlack (e : Effect i s t) (hk : KeepsBlack i) (hb : AllBlack s) : AllBlack t where
  pal p j := by
    obtain ⟨hpalset, -⟩ := hk
    have same : t.pal = s.pal := e.pal_cases.resolve_right fun ⟨p, j, v, hi, _⟩ => hpalset p j v hi
    rw [State.palAt, same]
    exact hb.pal p j
  fb sx sy := e.fb_stays_black hb (fbKey sx sy)
  mode := e.mode_of_keepsBlack hk hb.mode

theorem BlockAtReset.allBlack (h : BlockAtReset s) : AllBlack s where
  pal := by simp [State.palAt, h.pal]
  fb := by simp [State.fbAt, h.fb]
  mode := h.mode

theorem step_allBlack (hb : AllBlack s) (hw : ∀ w rest, s.inbox = .word w :: rest → KeepsBlack (decode w))
    (h : step s = .next t) : AllBlack t := by
  obtain ⟨-, rfl⟩ | ⟨w, rest, hx, he⟩ | ⟨_, _, _, _, -, rfl⟩ | ⟨_, -, rfl⟩ := step_cases h
  · exact hb
  · exact (effect_of_exec he).allBlack (hw w rest hx) { hb with }
  · exact { hb with }
  · exact (blockAtReset_resetBlock _).allBlack

/-- Each step of the run takes one of its first `k` inputs. -/
theorem run_allBlack (hb : AllBlack s) (hw : ∀ w, Input.word w ∈ s.inbox.take k → KeepsBlack (decode w))
    (h : run k s = .next t) : AllBlack t := by
  induction k generalizing s with
  | zero => cases h; exact hb
  | succ k ih =>
    obtain ⟨u, hu, hut⟩ := run_succ_next h
    have first : AllBlack u := step_allBlack hb (fun w rest hx => hw w (by simp [hx])) hu
    refine ih first (fun w hmem => hw w ?_) hut
    have later : Input.word w ∈ (s.inbox.take (k + 1)).tail := by
      rw [List.tail_take_eq_take_tail, ← inbox_of_step hu]
      exact hmem
    exact List.mem_of_mem_tail later

end Black

/-- Settles O55: a word's effect keeps the palettes, the pixels and the mode, and every other input leaves the block alone
or resets it. -/
theorem blackIsKeptByEveryStepButTwo : Obligations.BlackIsKeptByEveryStepButTwo :=
  fun _ _ hb hw h => step_allBlack hb hw h

/-- Settles O54: a block at reset is black, and the run keeps it so. -/
theorem blackUntilAPaletteEntryOrDirectMode : Obligations.BlackUntilAPaletteEntryOrDirectMode :=
  fun _ _ _ hr hw h => (run_allBlack hr.allBlack hw h).fb

end Sys2Proof.Machine

/-! ## The words of the vectors (95_test_vectors.md, sections 2.3 to 2.11) -/

namespace Sys2Proof

/-- Settles O6: each word is read as its fields `a`, `b` and `d`, by the equation of its opcode. -/
theorem specWordsDecodeAsWritten : Obligations.SpecWordsDecodeAsWritten :=
  ⟨readFrom_palset 0x0000 0x03 0x000000AB,
    readFrom_resolve 0x0000 0xAB 0x00000000,
    readFrom_tileset 0x0005 0x00 0x01234567,
    readFrom_sprseth 0x0007 0x00 0x00020202,
    readFrom_sprsett 0x0007 0x03 0x00000064,
    readFrom_bgset 0x002F 0x1F 0x000017FF,
    readFrom_scroll 0x0000 0x00 0xFFFF0005,
    readFrom_bgrow 0x007F 0x00 0x00000000,
    readFrom_sprdraw 0x0007 0x00 0xFFFD0078,
    readFrom_modeset 0x0000 0x00 0xFFFFFFFE,
    readFrom_rowpalset 0x0000 0x00 0x0000010F,
    readFrom_statget 0xFFFF 0xFF 0xFFFFFFFF,
    readFrom_of_decodeFields (decodeFields_of_not_mem (op := 0x46) (by decide)) 0x0000 0x00 0x00000000⟩

end Sys2Proof
